-- ==== Sys2Proof/Word.lean ====
section
/-! DEFINITION. The word types of the core (spec/00_scope.md rules R12, R15), the line selector, and the
two plain records a trace carries beside a label (spec/30_encoding.md rules R90, R94). -/

namespace Sys2Proof

/-- A value of the time base, a timestamp or the PWM period: `TW = 64` bits of nanoseconds (R12, R40). -/
abbrev Time := BitVec 64

/-- A brightness level or MaxLevel: `LW = 32` bits, unsigned (R12, R32). -/
abbrev Level := BitVec 32

/-- The 8-bit label that names a step in a trace (R90). -/
abbrev Label := BitVec 8

/-- An input line: A is the "increase" line, B the "decrease" line (R102). -/
inductive Line where
  | a
  | b
deriving DecidableEq, Repr

/-- The startup configuration, an operand of INIT (R94): `maxLevel` is signed, `CW = 32` bits two's complement;
`periodNs` is unsigned; the three line identifiers are natural numbers. -/
structure Cfg where
  maxLevel : BitVec 32
  periodNs : Time
  idInc : Nat
  idDec : Nat
  idOut : Nat
deriving DecidableEq, Repr

/-- One line of a trace: the label, and beside it the operands (R90, R94). Every line has every operand slot;
a label that takes no operand ignores them, and the encoder writes zeros there (DESIGN CHOICE, log entry 15). -/
structure TraceLine where
  label : Label
  delta : Time
  cfg : Cfg
  fail : BitVec 3
deriving DecidableEq, Repr

end Sys2Proof
end

