-- ==== Sys2Proof/Config.lean ====
section
/-! DEFINITION. What one realisation fixes (spec/00_scope.md rule R12): the build's debounce window, with the
spec's default, and the two OPEN parameters, for which no value is chosen. -/

namespace Sys2Proof.Config

/-- DEBOUNCE_WINDOW_NS, the default of R12 and R53: 200 ms in nanoseconds. `State.window` starts at it;
a statement about every state speaks of every build. -/
def debounceWindowNs : Time := 200000000#64

/-- The OPEN parameter LINE_VALID (R12, R52, D29): a predicate on the natural numbers.
No body: nothing can be proved of it, so it stands for every predicate (log entry 6). -/
opaque lineValid : Nat → Bool

/-- The OPEN parameter OUT_AFTER_RELEASE (R12, R229, D22): the level of an output line the core does not hold.
No body: nothing can be proved of it (log entry 7). -/
opaque outAfterRelease : Bool

end Sys2Proof.Config
end

