-- ==== Sys2Proof/Syntax.lean ====
section
/-! DEFINITION. The steps of the core, one constructor per row of spec/opcode_table.json
(spec/30_encoding.md rules R92, R94). -/

namespace Sys2Proof

/-- A labelled step with its operands. Only TICK and INIT carry operands (R94). -/
inductive Instr where
  /-- EDGE A (0x10, R122) -/
  | edgeA
  /-- EDGE B (0x11, R122) -/
  | edgeB
  /-- SIGNAL A (0x20, R126) -/
  | signalA
  /-- SIGNAL B (0x21, R126) -/
  | signalB
  /-- SMSTART (0x30, R145) -/
  | smstart
  /-- SMEXEC (0x40, R146) -/
  | smexec
  /-- PWM (0x50, R192) -/
  | pwm
  /-- SREAD (0x60, R170) -/
  | sread
  /-- SINC (0x61, R171) -/
  | sinc
  /-- SDEC (0x62, R172) -/
  | sdec
  /-- TICK d (0x70, R220) -/
  | tick (d : Time)
  /-- INIT cfg, fail (0x80, R222) -/
  | init (cfg : Cfg) (fail : BitVec 3)
  /-- TDBEGIN (0x90, R226) -/
  | tdbegin
  /-- TDEND (0xA0, R228) -/
  | tdend
deriving DecidableEq, Repr

end Sys2Proof
end

