-- ==== Sys2Proof/Machine/State.lean ====
section
/-! DEFINITION. The state of the core: every register of spec/10_state.md rule R58, the output trace and the
refusal mark, which are all the state R59 gives the core (`CoreState`); the machine's State, which extends it by what the
host's form of a step needs (log entries 1, 9, 10); the reasons a step can stop; and the power-up state. The OPEN parameters LINE_VALID and OUT_AFTER_RELEASE are no state
(R59): they are constants of Config. -/

namespace Sys2Proof.Machine

/-- SaturationState S (R34, R97). The value 0b11 is no state and is left out (R97, D28; DEDUCED, log
entry 22). -/
inductive SatState where
  | off
  | on
  | max
deriving DecidableEq, Repr

/-- ButtonEvent E, the pending-event slot (R36, R98). The value 0b11 is no event and is left out. -/
inductive Event where
  | none
  | increase
  | decrease
deriving DecidableEq, Repr

/-- An action of the transition table (R99, R142). The value 0b11 is no action and is left out. -/
inductive Action where
  | noop
  | increment
  | decrement
deriving DecidableEq, Repr

/-- The lifecycle state LIFE (R47, R100). The value 0b11 is no state and is left out. -/
inductive Life where
  | off
  | active
  | draining
deriving DecidableEq, Repr

/-- The startup error code ERR (R48, R101, R250). -/
inductive ErrCode where
  | ok
  | invalidLineIdentifier
  | lineAcquisitionFailed
  | interruptRegistrationFailed
deriving DecidableEq, Repr

/-- A record of the output trace (R20, R95): `OBS(level, pct)` or `WR(b)`. -/
inductive OutRec where
  | obs (level : Level) (pct : BitVec 8)
  | wr (b : Bool)
deriving DecidableEq, Repr

/-- An operation of the store port: SREAD, SINC, SDEC (R170 to R172). -/
inductive PortOp where
  | read
  | inc
  | dec
deriving DecidableEq, Repr

/-- Why a step has no next state. All three are SAFE: the model stops. -/
inductive Fault where
  /-- Raised by every guarded step taken where its `enabled:` condition is false, and by `step` at a line that names a port
  operation on its own, which is no step (R92, R173): there is no move (R18) and the trace is stuck there (R108). Safe
  (DESIGN CHOICE, log entries 2 and 9). -/
  | notEnabled
  /-- Raised by `step` when the trace holds no further line: nothing is scheduled. Safe (DESIGN CHOICE, log entry 3). -/
  | noStep
  /-- Raised by StoreInc at `L >= MAXL`, by StoreDec at `L = 0` (R174), and by SMEXEC and PWM where the level they
  read exceeds MAXL (the assertion R33 allows). No run from reset that schedules the spec's steps reaches it. Safe. -/
  | invariantViolated
deriving DecidableEq, Repr

/-- Why the model gives an input no meaning (R19). All are SAFE: a refused run supports no claim. -/
inductive Refusal where
  /-- An instruction whose arm is not modelled; raised by no arm of this model. Safe. -/
  | notModelled (mnemonic : String)
  /-- Raised by `step` and by loading a trace: the label spells no step (R104). Safe. -/
  | reservedLabel (label : Label)
  /-- Raised by INIT: its three identifiers are not pairwise distinct (R224). Safe. -/
  | sameLine
  /-- Raised by INIT: its fail selector is 110 or 111 (R105). Safe. -/
  | reservedFail
deriving DecidableEq, Repr

/-- The state of the core: exactly the registers of R58, the output trace with the startup errors (R20) and the refusal
mark (R59). Bits are `true` for 1 (R96). -/
structure CoreState where
  /-- L, BrightnessLevel (R32) -/
  level : Level
  /-- S, SaturationState (R34) -/
  sat : SatState
  /-- E, the pending ButtonEvent (R36) -/
  event : Event
  /-- DCLK[A] (R37) -/
  dclkA : Time
  /-- DCLK[B] (R37) -/
  dclkB : Time
  /-- PCLK (R38) -/
  pclk : Time
  /-- OUT; `true` is HIGH (R39) -/
  out : Bool
  /-- T, the time base (R40) -/
  time : Time
  /-- SM_PEND (R41) -/
  smPend : Bool
  /-- SM_PHASE; `true` is Claimed (R42) -/
  smPhase : Bool
  /-- ISR_PHASE[A]; `true` is SignalDue (R43) -/
  isrA : Bool
  /-- ISR_PHASE[B]; `true` is SignalDue (R43) -/
  isrB : Bool
  /-- IRQ_EN[A] (R44) -/
  irqA : Bool
  /-- IRQ_EN[B] (R44) -/
  irqB : Bool
  /-- PWM_RUN (R45) -/
  pwmRun : Bool
  /-- CANCEL (R46) -/
  cancel : Bool
  /-- LIFE (R47) -/
  life : Life
  /-- ERR (R48) -/
  err : ErrCode
  /-- HELD_INC (R49) -/
  heldInc : Bool
  /-- HELD_DEC (R49) -/
  heldDec : Bool
  /-- HELD_OUT (R49) -/
  heldOut : Bool
  /-- MAXL (R50) -/
  maxl : Level
  /-- PERIOD (R51) -/
  period : Time
  /-- ID_INC (R52) -/
  idInc : Nat
  /-- ID_DEC (R52) -/
  idDec : Nat
  /-- ID_OUT (R52) -/
  idOut : Nat
  /-- WINDOW, a constant no step writes (R53) -/
  window : Time
  /-- The output trace, oldest record first (R20) -/
  output : List OutRec
  /-- The startup errors INIT raised, oldest first (R17, R20; log entry 12) -/
  startupErrors : List ErrCode
  /-- The refusal mark (R19, R59; log entry 13) -/
  refusal : Option Refusal
deriving DecidableEq, Repr

/-- What the host's `step` runs on: the core's state (R59), and beside it the lines still to run. The spec leaves the order
of steps to the host and the scheduler (R10, R78), which choose from outside the core; `step` has no argument but this one,
so the trace that spells their choices (R90) stands here (DESIGN CHOICE, log entry 1). -/
structure State extends CoreState where
  /-- Not of the core: the lines of the trace still to run (R90; log entry 1) -/
  trace : List TraceLine
deriving DecidableEq, Repr

/-- The power-up state (R58, R282), before any INIT. The registers that hold no value there are at zero
(log entry 4), T at zero (log entry 5). -/
def State.reset : State where
  level := 0#32
  sat := .off
  event := .none
  dclkA := 0#64
  dclkB := 0#64
  pclk := 0#64
  out := false
  time := 0#64
  smPend := false
  smPhase := false
  isrA := false
  isrB := false
  irqA := false
  irqB := false
  pwmRun := false
  cancel := false
  life := .off
  err := .ok
  heldInc := false
  heldDec := false
  heldOut := false
  maxl := 0#32
  period := 0#64
  idInc := 0
  idDec := 0
  idOut := 0
  window := Config.debounceWindowNs
  output := []
  startupErrors := []
  refusal := none
  trace := []

end Sys2Proof.Machine
end

