-- ==== Sys2Proof/WellFormed.lean ====
section
/-! DEFINITION. Which instructions the spec gives a meaning (spec/30_encoding.md rule R105,
spec/44_lifecycle.md rule R224). Everything else about an instruction is fixed by its type. -/

namespace Sys2Proof

/-- The three identifiers name three different lines; INIT is refused otherwise (R224; DEDUCED, log entry 24). -/
def Cfg.distinctLines (c : Cfg) : Bool :=
  (c.idInc != c.idDec) && (c.idInc != c.idOut) && (c.idDec != c.idOut)

/-- The fail selector is one of the six defined ones; 110 and 111 are reserved (R94, R105). -/
def failDefined (fail : BitVec 3) : Bool :=
  (fail != 0b110#3) && (fail != 0b111#3)

/-- A well-formed instruction: one that the model never refuses (R19, R105, R224). -/
def Instr.wf : Instr → Bool
  | .init cfg fail => cfg.distinctLines && failDefined fail
  | .edgeA => true
  | .edgeB => true
  | .signalA => true
  | .signalB => true
  | .smstart => true
  | .smexec => true
  | .pwm => true
  | .sread => true
  | .sinc => true
  | .sdec => true
  | .tick _ => true
  | .tdbegin => true
  | .tdend => true

end Sys2Proof
end

