-- ==== Sys2Proof/Machine/Operands.lean ====
section
/-! DEFINITION. The operand forms: the line selector's event, and INIT's configuration and fail selector
(spec/30_encoding.md rules R94, R102; spec/44_lifecycle.md rules R222, R223). -/

namespace Sys2Proof.Machine

/-- The event an accepted edge of a line produces: A gives Increase, B gives Decrease (R102). -/
def evtOf : Line → Event
  | .a => .increase
  | .b => .decrease

/-- `max(0, CFG_MAX_LEVEL)` of the signed startup value (R13, R50). -/
def clampMaxLevel (m : BitVec 32) : Level := BitVec.ofInt 32 (max 0 m.toInt)

/-- The fail selector names a line acquisition: 001, 010 or 011 (R94). -/
def failAcquire (fail : BitVec 3) : Bool :=
  (fail == 0b001#3) || (fail == 0b010#3) || (fail == 0b011#3)

/-- The fail selector names an interrupt registration: 100 or 101 (R94). -/
def failRegister (fail : BitVec 3) : Bool :=
  (fail == 0b100#3) || (fail == 0b101#3)

/-- A LINE_VALID predicate holds of all three configured identifiers (R222). -/
def validCfg (valid : Nat → Bool) (cfg : Cfg) : Bool :=
  valid cfg.idInc && valid cfg.idDec && valid cfg.idOut

end Sys2Proof.Machine
end

