-- ==== Sys2Proof/Machine/Ops.lean ====
section
/-! DEFINITION. The named operations over the state: guarded steps, the per-line registers, elapsed time, the
output trace, and the startup error (spec/00_scope.md rules R17 to R20). The core has no memory
(spec/20_memory.md rule R70) and no trap mechanism (spec/60_exceptions.md rule R254). -/

namespace Sys2Proof.Machine

/-- What a step of the core answers (R19). -/
abbrev CoreResult := Host.Outcome CoreState Fault Refusal

/-- What a step of the host's machine answers. -/
abbrev Result := Host.Outcome State Fault Refusal

/-- The core's state within the machine's: exactly what R59 lists. -/
abbrev State.core (s : State) : CoreState := s.toCoreState

/-- Another state of the core beside the same trace. -/
def State.withCore (c : CoreState) (s : State) : State := { s with toCoreState := c }

/-- A step of the core, taken by the machine: it is given the core's state alone, and the trace beside it stays. -/
def onCore (f : CoreState → CoreResult) (s : State) : Result :=
  match f s.core with
  | .next c => .next (s.withCore c)
  | .fault x => .fault x
  | .refused r => .refused r

/-- A guarded atomic action (R18): the body where `enabled:` holds, else no move. -/
def guardStep (enabled : Bool) (body : CoreResult) : CoreResult :=
  if enabled then body else .fault .notEnabled

/-- The second part of a step's body, run on the state the first part leaves. -/
def andThen (r : CoreResult) (f : CoreState → CoreResult) : CoreResult :=
  match r with
  | .next c => f c
  | .fault x => .fault x
  | .refused x => .refused x

/-- DCLK[x] (R37). -/
def CoreState.dclk (c : CoreState) : Line → Time
  | .a => c.dclkA
  | .b => c.dclkB

/-- Write DCLK[x] (R37). -/
def CoreState.setDclk (x : Line) (v : Time) (c : CoreState) : CoreState :=
  match x with
  | .a => { c with dclkA := v }
  | .b => { c with dclkB := v }

/-- ISR_PHASE[x] (R43). -/
def CoreState.isr (c : CoreState) : Line → Bool
  | .a => c.isrA
  | .b => c.isrB

/-- Write ISR_PHASE[x] (R43). -/
def CoreState.setIsr (x : Line) (v : Bool) (c : CoreState) : CoreState :=
  match x with
  | .a => { c with isrA := v }
  | .b => { c with isrB := v }

/-- IRQ_EN[x] (R44). -/
def CoreState.irq (c : CoreState) : Line → Bool
  | .a => c.irqA
  | .b => c.irqB

/-- The time since a stamp: `(T - stamp) mod 2^TW` (R121, R196; DEDUCED, log entry 23). -/
def CoreState.since (c : CoreState) (stamp : Time) : Time := c.time - stamp

/-- `emit`: append a record to the output trace (R17). -/
def CoreState.emit (r : OutRec) (c : CoreState) : CoreState := { c with output := c.output ++ [r] }

/-- `raise StartupError(code)` after `ERR <- code` (R17, R222, R225): INIT ends with the one error; nothing else is
written, so LIFE stays Off and nothing is held or registered. A normal outcome, not a fault (R19). -/
def raiseStartupError (code : ErrCode) (c : CoreState) : CoreResult :=
  .next { c with err := code, startupErrors := c.startupErrors ++ [code] }

/-- Set the refusal mark of a run (R19). -/
def State.markRefused (r : Refusal) (s : State) : State := { s with refusal := some r }

end Sys2Proof.Machine
end

