-- ==== Sys2Proof/Machine/Flags.lean ====
section
/-! DEFINITION. The core has no condition codes (spec/10_state.md rule R55). The values it derives from the level:
the saturation state S (R35) and the percentage of an OBS record (spec/41_state_machine.md rule R147); and the
bits of the enumerations (spec/30_encoding.md rules R97 to R101). -/

namespace Sys2Proof.Machine

/-- `sat(l)`: Off if `l = 0`, else Max if `l = MAXL`, else On; the test for 0 comes first (R35, D10). -/
def satOf (maxl l : Level) : SatState :=
  if l = 0#32 then .off else if l = maxl then .max else .on

/-- `pct(l)`: `(100 * l) div MAXL`, and 0 when `MAXL = 0` (R147), before it is stored in 8 bits (DEDUCED,
log entry 18). -/
def pctNat (maxl l : Level) : Nat :=
  if maxl = 0#32 then 0 else 100 * l.toNat / maxl.toNat

/-- `pct(l)` as the 8-bit value an OBS record holds (R95). -/
def pctOf (maxl l : Level) : BitVec 8 := BitVec.ofNat 8 (pctNat maxl l)

/-- S in bits (R97). -/
def SatState.bits : SatState → BitVec 2
  | .off => 0b00#2
  | .on => 0b01#2
  | .max => 0b10#2

/-- E in bits (R98). -/
def Event.bits : Event → BitVec 2
  | .none => 0b00#2
  | .increase => 0b01#2
  | .decrease => 0b10#2

/-- An action in bits (R99). -/
def Action.bits : Action → BitVec 2
  | .noop => 0b00#2
  | .increment => 0b01#2
  | .decrement => 0b10#2

/-- LIFE in bits (R100). -/
def Life.bits : Life → BitVec 2
  | .off => 0b00#2
  | .active => 0b01#2
  | .draining => 0b10#2

/-- ERR in bits (R101). -/
def ErrCode.bits : ErrCode → BitVec 2
  | .ok => 0b00#2
  | .invalidLineIdentifier => 0b01#2
  | .lineAcquisitionFailed => 0b10#2
  | .interruptRegistrationFailed => 0b11#2

/-- The line selector in bits (R102). -/
def lineBit : Line → BitVec 1
  | .a => 0#1
  | .b => 1#1

end Sys2Proof.Machine
end

