-- ==== Sys2Proof/Machine/Debounce.lean ====
section
/-! DEFINITION. The Debounce Filter's steps, EDGE x and SIGNAL x (spec/40_debounce.md rules R122 to R127). Taking
EDGE x is the entry to the handler of line x and saves nothing (spec/60_exceptions.md rule R256); a rejecting EDGE
or the SIGNAL ends it, and there is nothing to restore (R257). -/

namespace Sys2Proof.Machine

/-- `enabled:` of EDGE x (R122). -/
def edgeEnabled (x : Line) (c : CoreState) : Bool :=
  (c.life == .active) && c.irq x && !c.isr x

/-- An edge on line x is accepted iff `elapsed(x) >= WINDOW` (R121, R123; conflict C1). -/
def edgeAccepted (x : Line) (c : CoreState) : Bool := c.window.ule (c.since (c.dclk x))

/-- What an accepting EDGE x writes: DCLK[x], E and ISR_PHASE[x] (R123). -/
def acceptEdge (x : Line) (c : CoreState) : CoreState :=
  { (c.setDclk x c.time).setIsr x true with event := evtOf x }

/-- EDGE x (R122): accept, or drop the edge with no register changed (R124). -/
def edge (x : Line) (c : CoreState) : CoreResult :=
  guardStep (edgeEnabled x c) (.next (if edgeAccepted x c then acceptEdge x c else c))

/-- `enabled:` of SIGNAL x (R126). -/
def signalEnabled (x : Line) (c : CoreState) : Bool := c.isr x

/-- SIGNAL x (R126): the coalesced submission. Setting a set SM_PEND changes nothing (R41, R127). -/
def signal (x : Line) (c : CoreState) : CoreResult :=
  guardStep (signalEnabled x c) (.next { c.setIsr x false with smPend := true })

/-- EDGE A (0x10, R122). -/
def execEdgeA (s : State) : Result := onCore (edge .a) s

/-- EDGE B (0x11, R122). -/
def execEdgeB (s : State) : Result := onCore (edge .b) s

/-- SIGNAL A (0x20, R126). -/
def execSignalA (s : State) : Result := onCore (signal .a) s

/-- SIGNAL B (0x21, R126). -/
def execSignalB (s : State) : Result := onCore (signal .b) s

end Sys2Proof.Machine
end

