-- ==== Sys2Proof/Machine/Lifecycle.lean ====
section
/-! DEFINITION. The host's steps TICK, INIT, TDBEGIN and TDEND (spec/44_lifecycle.md). INIT is the core's reset
(spec/70_reset_and_hazards.md rule R280). -/

namespace Sys2Proof.Machine

/-- TICK d (R220): enabled in every state; `T <- (T + d) mod 2^TW`. -/
def tick (d : Time) (c : CoreState) : CoreResult := .next { c with time := c.time + d }

/-- TICK d (0x70, R220). -/
def execTick (d : Time) (s : State) : Result := onCore (tick d) s

/-- `enabled:` of INIT (R222). -/
def initEnabled (c : CoreState) : Bool := (c.life == .off)

/-- The state a successful INIT leaves (R222; the after-INIT column of R58): every register but T and WINDOW. -/
def initState (cfg : Cfg) (c : CoreState) : CoreState :=
  { c with
    maxl := clampMaxLevel cfg.maxLevel
    period := cfg.periodNs
    idInc := cfg.idInc
    idDec := cfg.idDec
    idOut := cfg.idOut
    level := 0#32
    sat := .off
    event := .none
    dclkA := c.time
    dclkB := c.time
    pclk := c.time
    out := false
    smPend := false
    smPhase := false
    isrA := false
    isrB := false
    cancel := false
    pwmRun := true
    irqA := true
    irqB := true
    heldInc := true
    heldDec := true
    heldOut := true
    err := .ok
    life := .active }

/-- INIT's checks, in the order of R222 and R253: the two refusals, then the identifiers, the acquisitions and the
registrations; then success. LINE_VALID is a parameter of the step (R59). -/
def initBody (valid : Nat → Bool) (cfg : Cfg) (fail : BitVec 3) (c : CoreState) : CoreResult :=
  if !cfg.distinctLines then .refused .sameLine
  else if !failDefined fail then .refused .reservedFail
  else if !validCfg valid cfg then raiseStartupError .invalidLineIdentifier c
  else if failAcquire fail then raiseStartupError .lineAcquisitionFailed c
  else if failRegister fail then raiseStartupError .interruptRegistrationFailed c
  else .next (initState cfg c)

/-- INIT under a LINE_VALID predicate (R222): what is stated of it holds for every predicate (D29). -/
def initWith (valid : Nat → Bool) (cfg : Cfg) (fail : BitVec 3) (c : CoreState) : CoreResult :=
  guardStep (initEnabled c) (initBody valid cfg fail c)

/-- INIT cfg, fail (0x80, R222), under the OPEN parameter LINE_VALID (log entry 6). -/
def execInit (cfg : Cfg) (fail : BitVec 3) (s : State) : Result := onCore (initWith Config.lineValid cfg fail) s

/-- `enabled:` of TDBEGIN (R226). -/
def tdbeginEnabled (c : CoreState) : Bool := (c.life == .active) && !c.isrA && !c.isrB

/-- TDBEGIN (R226): interrupts first, then the tasks (D21). -/
def tdbegin (c : CoreState) : CoreResult :=
  guardStep (tdbeginEnabled c)
    (.next { c with irqA := false, irqB := false, smPend := false, cancel := true, pwmRun := false, life := .draining })

/-- TDBEGIN (0x90, R226). -/
def execTdbegin (s : State) : Result := onCore tdbegin s

/-- `enabled:` of TDEND (R228). -/
def tdendEnabled (c : CoreState) : Bool := (c.life == .draining) && !c.smPhase

/-- TDEND (R228): release the lines. -/
def tdend (c : CoreState) : CoreResult :=
  guardStep (tdendEnabled c)
    (.next { c with heldInc := false, heldDec := false, heldOut := false, life := .off })

/-- TDEND (0xA0, R228). -/
def execTdend (s : State) : Result := onCore tdend s

end Sys2Proof.Machine
end

