-- ==== Sys2Proof/Machine/Store.lean ====
section
/-! DEFINITION. The Shared Brightness Store's port operations on L (spec/42_brightness_store.md rules R170 to R174).
SMEXEC and PWM perform them inside their own step, at the point their pseudocode gives (R173); what the labels that name
them may do in a trace is said in Relation and Fetch. -/

namespace Sys2Proof.Machine

/-- StoreRead: the value of L; no register is written (R170, R77). -/
def storeRead (c : CoreState) : Level := c.level

/-- StoreInc: `L <- L + 1`, performed only when `L < MAXL`, never a wrapped value (R171, R174). -/
def storeInc (c : CoreState) : CoreResult :=
  if c.level < c.maxl then .next { c with level := c.level + 1#32 } else .fault .invariantViolated

/-- StoreDec: `L <- L - 1`, performed only when `L > 0`, never a wrapped value (R172, R174). -/
def storeDec (c : CoreState) : CoreResult :=
  if c.level = 0#32 then .fault .invariantViolated else .next { c with level := c.level - 1#32 }

/-- SREAD as an effect on the state: none, since it writes no register (R170); its Result is `storeRead`, a value that the
step performing it uses at once (log entry 10). -/
def sread (c : CoreState) : CoreResult := .next c

/-- SREAD (0x60, R170). -/
def execSread (s : State) : Result := onCore sread s

/-- SINC (0x61, R171). -/
def execSinc (s : State) : Result := onCore storeInc s

/-- SDEC (0x62, R172). -/
def execSdec (s : State) : Result := onCore storeDec s

end Sys2Proof.Machine
end

