-- ==== Sys2Proof/Machine/Pwm.lean ====
section
/-! DEFINITION. The Software PWM Engine's step, PWM (spec/43_pwm.md rules R190 to R197). -/

namespace Sys2Proof.Machine

/-- `hi_dwell(l) = (PERIOD * l) div MAXL`: the exact product, then the truncating divide (R191, D15;
DEDUCED, log entry 18). -/
def hiDwell (period : Time) (maxl l : Level) : Nat := period.toNat * l.toNat / maxl.toNat

/-- `lo_dwell(l) = PERIOD - hi_dwell(l)` (R191). -/
def loDwell (period : Time) (maxl l : Level) : Nat := period.toNat - hiDwell period maxl l

/-- The dwell required at the current output level: HIGH stays hi_dwell, LOW stays lo_dwell (R192, R195). -/
def dwell (c : CoreState) (l : Level) : Nat :=
  if c.out then hiDwell c.period c.maxl l else loDwell c.period c.maxl l

/-- A write of OUT, emitted as one WR record (R194). -/
def driveOut (b : Bool) (c : CoreState) : CoreState := { c.emit (.wr b) with out := b }

/-- The duty-cycle comparator: the elapsed time since the last transition has reached the dwell (R195, R196). -/
def flipDue (c : CoreState) (l : Level) : Bool := Nat.ble (dwell c l) (c.since c.pclk).toNat

/-- A flip of the output, with the iteration's time sample as the new transition time (R195). -/
def flipOut (c : CoreState) : CoreState := { driveOut (!c.out) c with pclk := c.time }

/-- `enabled:` of PWM (R192, R197). -/
def pwmEnabled (c : CoreState) : Bool := (c.life == .active) && c.pwmRun && !c.cancel

/-- What an iteration does with the level it has read (R192, R193, R195). A level above MAXL is asserted away, as R33 allows
(log entry 11). -/
def pwmIteration (l : Level) (c : CoreState) : CoreResult :=
  if l = 0#32 then .next (driveOut false c)
  else if l = c.maxl then .next (driveOut true c)
  else if l < c.maxl then .next (if flipDue c l then flipOut c else c)
  else .fault .invariantViolated

/-- A PWM iteration (R192): one SREAD, then what it does with the level read (R173). -/
def pwmStep (c : CoreState) : CoreResult := guardStep (pwmEnabled c) (pwmIteration (storeRead c) c)

/-- PWM (0x50, R192). -/
def execPwm (s : State) : Result := onCore pwmStep s

end Sys2Proof.Machine
end

