-- ==== Sys2Proof/Machine/StateMachine.lean ====
section
/-! DEFINITION. The Brightness State Machine's steps, SMSTART and SMEXEC (spec/41_state_machine.md rules R140 to
R147), and its transition table (spec/30_encoding.md rule R103). -/

namespace Sys2Proof.Machine

/-- The transition table `table(S, E)` (R140). -/
def tableAction : SatState → Event → Action
  | .off, .none => .noop
  | .off, .increase => .increment
  | .off, .decrease => .noop
  | .on, .none => .noop
  | .on, .increase => .increment
  | .on, .decrease => .decrement
  | .max, .none => .noop
  | .max, .increase => .noop
  | .max, .decrease => .decrement

/-- The table as the read-only table of R103: address `{S[1:0], E[1:0]}`, two action bits. The seven addresses with
0b11 are never read and are left out (R103, D28). -/
def romAction (addr : BitVec 4) : Option (BitVec 2) :=
  match addr.toNat with
  | 0b0000 => some 0b00#2
  | 0b0001 => some 0b01#2
  | 0b0010 => some 0b00#2
  | 0b0100 => some 0b00#2
  | 0b0101 => some 0b01#2
  | 0b0110 => some 0b10#2
  | 0b1000 => some 0b00#2
  | 0b1001 => some 0b00#2
  | 0b1010 => some 0b10#2
  | _ => none

/-- The action of a pass: the table's, but no-op when `MAXL = 0` (R141, R146; conflict C2). -/
def passAction (c : CoreState) : Action :=
  if c.maxl = 0#32 then .noop else tableAction c.sat c.event

/-- Apply an action to L: at most one SINC or SDEC (R142, R173). There is no clamp (R143). -/
def applyAction (a : Action) (c : CoreState) : CoreResult :=
  match a with
  | .noop => .next c
  | .increment => storeInc c
  | .decrement => storeDec c

/-- What a pass does with the level it has read: recompute S, emit OBS, release the pass (R146, R147). The level is
asserted to lie in `[0, MAXL]`, as R33 allows (DESIGN CHOICE, log entry 11). -/
def recordPass (l : Level) (c : CoreState) : CoreResult :=
  if l ≤ c.maxl then
    .next { c.emit (.obs l (pctOf c.maxl l)) with sat := satOf c.maxl l, smPhase := false }
  else .fault .invariantViolated

/-- The end of a pass: its one SREAD, of the new level, and what follows from it (R146, R173). -/
def finishPass (c : CoreState) : CoreResult := recordPass (storeRead c) c

/-- `enabled:` of SMSTART (R145). -/
def smstartEnabled (c : CoreState) : Bool := (c.life == .active) && c.smPend && !c.smPhase

/-- `enabled:` of SMEXEC (R146): in flight, whatever LIFE is. -/
def smexecEnabled (c : CoreState) : Bool := c.smPhase

/-- SMSTART (R145): consume the request, claim the pass. -/
def smstart (c : CoreState) : CoreResult :=
  guardStep (smstartEnabled c) (.next { c with smPend := false, smPhase := true })

/-- SMEXEC (R146). E is read and not cleared (R36, D11). -/
def smexec (c : CoreState) : CoreResult :=
  guardStep (smexecEnabled c) (andThen (applyAction (passAction c) c) finishPass)

/-- SMSTART (0x30, R145). -/
def execSmstart (s : State) : Result := onCore smstart s

/-- SMEXEC (0x40, R146). -/
def execSmexec (s : State) : Result := onCore smexec s

end Sys2Proof.Machine
end

