-- ==== Sys2Proof/Machine/Dispatch.lean ====
section
/-! DEFINITION. exec: one arm per constructor of Instr, each one direct call of its meaning. -/

namespace Sys2Proof.Machine

def exec (i : Instr) (s : State) : Host.Outcome State Fault Refusal :=
  match i with
  | .edgeA => Sys2Proof.Machine.execEdgeA s
  | .edgeB => Sys2Proof.Machine.execEdgeB s
  | .signalA => Sys2Proof.Machine.execSignalA s
  | .signalB => Sys2Proof.Machine.execSignalB s
  | .smstart => Sys2Proof.Machine.execSmstart s
  | .smexec => Sys2Proof.Machine.execSmexec s
  | .pwm => Sys2Proof.Machine.execPwm s
  | .sread => Sys2Proof.Machine.execSread s
  | .sinc => Sys2Proof.Machine.execSinc s
  | .sdec => Sys2Proof.Machine.execSdec s
  | .tick d => Sys2Proof.Machine.execTick d s
  | .init cfg fail => Sys2Proof.Machine.execInit cfg fail s
  | .tdbegin => Sys2Proof.Machine.execTdbegin s
  | .tdend => Sys2Proof.Machine.execTdend s

end Sys2Proof.Machine
end

