-- ==== Sys2Proof/Decode.lean ====
section
/-! DEFINITION. The label map of spec/30_encoding.md (rules R90 to R94, R104): the decoder, total on any trace
line and rejecting by name, then the encoder. -/

namespace Sys2Proof

/-- Why a trace line spells no step (R104). -/
inductive DecodeError where
  /-- The label is not one of R92's. -/
  | reservedLabel (label : Label)
deriving DecidableEq, Repr

/-- LBL[7:4], the step class (R91). -/
def opcOf (l : Label) : BitVec 4 := l.extractLsb' 4 4

/-- LBL[3:0], the selector within the class (R91). -/
def subOf (l : Label) : BitVec 4 := l.extractLsb' 0 4

/-- The line selector of EDGE and SIGNAL is SUB[0] (R91, R102); SUB[3:1] must be 000. -/
def lineOfSub (sub : BitVec 4) : Option Line :=
  if sub = 0#4 then some .a else if sub = 1#4 then some .b else none

/-- EDGE x for a line (R92). -/
def edgeInstr : Line → Instr
  | .a => .edgeA
  | .b => .edgeB

/-- SIGNAL x for a line (R92). -/
def signalInstr : Line → Instr
  | .a => .signalA
  | .b => .signalB

/-- The store port's rows: OPC 0x6 (R92). -/
def storeInstr (sub : BitVec 4) : Option Instr :=
  if sub = 0#4 then some .sread
  else if sub = 1#4 then some .sinc
  else if sub = 2#4 then some .sdec
  else none

/-- A class whose only selector is 0 (R92). -/
def onlySub0 (sub : BitVec 4) (i : Instr) : Option Instr :=
  if sub = 0#4 then some i else none

/-- The step map of R92, read from OPC and SUB alone (R91); `none` for the reserved labels of R104. -/
def decodeFields (ln : TraceLine) : Option Instr :=
  let sub := subOf ln.label
  match (opcOf ln.label).toNat with
  | 0x1 => (lineOfSub sub).map edgeInstr
  | 0x2 => (lineOfSub sub).map signalInstr
  | 0x3 => onlySub0 sub .smstart
  | 0x4 => onlySub0 sub .smexec
  | 0x5 => onlySub0 sub .pwm
  | 0x6 => storeInstr sub
  | 0x7 => onlySub0 sub (.tick ln.delta)
  | 0x8 => onlySub0 sub (.init ln.cfg ln.fail)
  | 0x9 => onlySub0 sub .tdbegin
  | 0xA => onlySub0 sub .tdend
  | _ => none

/-- The decoder: the step a trace line names, or the refusal of R104. -/
def decode (ln : TraceLine) : Except DecodeError Instr :=
  match decodeFields ln with
  | some i => .ok i
  | none => .error (.reservedLabel ln.label)

/-- The label of a step (R92). -/
def labelOf : Instr → Label
  | .edgeA => 0x10#8
  | .edgeB => 0x11#8
  | .signalA => 0x20#8
  | .signalB => 0x21#8
  | .smstart => 0x30#8
  | .smexec => 0x40#8
  | .pwm => 0x50#8
  | .sread => 0x60#8
  | .sinc => 0x61#8
  | .sdec => 0x62#8
  | .tick _ => 0x70#8
  | .init _ _ => 0x80#8
  | .tdbegin => 0x90#8
  | .tdend => 0xA0#8

/-- The labels R92 defines; every other label is reserved (R104). -/
def definedLabels : List Label :=
  [0x10#8, 0x11#8, 0x20#8, 0x21#8, 0x30#8, 0x40#8, 0x50#8, 0x60#8, 0x61#8, 0x62#8, 0x70#8, 0x80#8, 0x90#8, 0xA0#8]

/-- Operand slots of zeros. -/
def Cfg.zero : Cfg := ⟨0#32, 0#64, 0, 0, 0⟩

/-- A line with a label and zeros in every operand slot. -/
def bareLine (l : Label) : TraceLine := ⟨l, 0#64, Cfg.zero, 0#3⟩

/-- The encoder (R92, R94): the label, and the operands TICK and INIT carry beside it. -/
def encode (i : Instr) : TraceLine :=
  match i with
  | .tick d => { bareLine (labelOf i) with delta := d }
  | .init cfg fail => { bareLine (labelOf i) with cfg := cfg, fail := fail }
  | .edgeA => bareLine (labelOf i)
  | .edgeB => bareLine (labelOf i)
  | .signalA => bareLine (labelOf i)
  | .signalB => bareLine (labelOf i)
  | .smstart => bareLine (labelOf i)
  | .smexec => bareLine (labelOf i)
  | .pwm => bareLine (labelOf i)
  | .sread => bareLine (labelOf i)
  | .sinc => bareLine (labelOf i)
  | .sdec => bareLine (labelOf i)
  | .tdbegin => bareLine (labelOf i)
  | .tdend => bareLine (labelOf i)

/-- The trace line of an opcode-table word: its low 8 bits are the label, the operands beside it are zeros. -/
def tableLine (w : Nat) : TraceLine := bareLine (BitVec.ofNat 8 w)

/-- The instruction the decoder reads from a table word of `nbits` bits. A label is 8 bits long and there is no
other length (R91; DESIGN CHOICE, log entry 21). -/
def decodeTableWord (nbits w : Nat) : Option Instr :=
  if nbits = 8 ∧ w < 256 then (decode (tableLine w)).toOption else none

end Sys2Proof
end

