-- ==== Sys2Proof/Machine/Relation.lean ====
section
/-! DEFINITION. The core as a step relation over exactly the state of spec/10_state.md rule R59, under the parameter
LINE_VALID, which that rule calls a parameter of the relation and no state (spec/00_scope.md rules R10, R12, R18, R19). -/

namespace Sys2Proof.Machine

/-- The port operation a label names (R92). -/
def portOpOf : Instr → Option PortOp
  | .sread => some .read
  | .sinc => some .inc
  | .sdec => some .dec
  | .edgeA => none
  | .edgeB => none
  | .signalA => none
  | .signalB => none
  | .smstart => none
  | .smexec => none
  | .pwm => none
  | .tick _ => none
  | .init _ _ => none
  | .tdbegin => none
  | .tdend => none

/-- The label that names a port operation (R92). -/
def portInstr : PortOp → Instr
  | .read => .sread
  | .inc => .sinc
  | .dec => .sdec

/-- What each label of R92 does to the core's state: a step's guard and body, a port operation's body. -/
def coreExec (valid : Nat → Bool) (i : Instr) (c : CoreState) : CoreResult :=
  match i with
  | .edgeA => edge .a c
  | .edgeB => edge .b c
  | .signalA => signal .a c
  | .signalB => signal .b c
  | .smstart => smstart c
  | .smexec => smexec c
  | .pwm => pwmStep c
  | .sread => sread c
  | .sinc => storeInc c
  | .sdec => storeDec c
  | .tick d => tick d c
  | .init cfg fail => initWith valid cfg fail c
  | .tdbegin => tdbegin c
  | .tdend => tdend c

/-- The step relation of the core (R18, R19, R59): a step of an agent takes the core's state to its outcome. A port
operation is no step of its own and has no move here (R10, R92, R173): it is performed inside SMEXEC and PWM. -/
def coreStep (valid : Nat → Bool) (i : Instr) (c : CoreState) : CoreResult :=
  match portOpOf i with
  | some _ => .fault .notEnabled
  | none => coreExec valid i c

/-- Steps of the core one after the other, stopping at the first that has no next state (R78, R108). -/
def coreSteps (valid : Nat → Bool) : List Instr → CoreState → CoreResult
  | [], c => .next c
  | i :: is, c => andThen (coreStep valid i c) (coreSteps valid is)

/-- Steps one after the other, beside the trace. -/
def execAll (is : List Instr) (s : State) : Result := onCore (coreSteps Config.lineValid is) s

end Sys2Proof.Machine
end

