-- ==== Sys2Proof/Machine/Fetch.lean ====
section
/-! DEFINITION. Taking the next line of the trace (spec/30_encoding.md rules R90, R92, R108; log entries 1, 9). The
core itself fetches nothing (spec/20_memory.md rule R83): the trace stands for the order of steps that the host and
the scheduler choose (spec/60_exceptions.md rules R259, R266). -/

namespace Sys2Proof.Machine

/-- The next line of the trace and the lines after it. -/
def State.nextLine (s : State) : Option (TraceLine × List TraceLine) :=
  match s.trace with
  | [] => none
  | ln :: rest => some (ln, rest)

/-- The store write of an action, if any (R142). -/
def writesOf : Action → List PortOp
  | .noop => []
  | .increment => [.inc]
  | .decrement => [.dec]

/-- The port operations a step performs, in order (R146, R173, R192), which a detailed trace may list right after it
(R92). -/
def performs (i : Instr) (c : CoreState) : List PortOp :=
  match i with
  | .smexec => writesOf (passAction c) ++ [.read]
  | .pwm => [.read]
  | _ => []

/-- What is still to be listed after an operation, where the operation is in the list (R92: each at most once, in
order). -/
def afterListed (op : PortOp) : List PortOp → Option (List PortOp)
  | [] => none
  | p :: ps => if p = op then some ps else afterListed op ps

/-- Whether a line lists one of the operations, and what it leaves to be listed. -/
def listedRest (ln : TraceLine) (ops : List PortOp) : Option (List PortOp) :=
  match (decodeFields ln).bind portOpOf with
  | some op => afterListed op ops
  | none => none

/-- The lines after those that list operations the step performed (R92): they are that step's own, spelled in detail. -/
def dropListed : List PortOp → List TraceLine → List TraceLine
  | _, [] => []
  | ops, ln :: rest =>
    match listedRest ln ops with
    | some left => dropListed left rest
    | none => ln :: rest

/-- The state a step runs on: its line is taken from the trace, and with it the lines that list what it performs. -/
def State.advance (i : Instr) (rest : List TraceLine) (s : State) : State :=
  { s with trace := dropListed (performs i s.core) rest }

/-- Take a line's instruction as a step. A port operation is never scheduled on its own (R92, R173): it has no move. -/
def takeInstr (i : Instr) (s : State) : Result :=
  match portOpOf i with
  | some _ => .fault .notEnabled
  | none => exec i s

/-- The refusal a decoding error is (R104). -/
def refusalOf : DecodeError → Refusal
  | .reservedLabel l => .reservedLabel l

/-- Put a line where the next step takes it. -/
def State.pushLine (ln : TraceLine) (s : State) : State := { s with trace := ln :: s.trace }

end Sys2Proof.Machine
end

