-- ==== Sys2Proof/Machine/Step.lean ====
section
/-! DEFINITION. One step of the machine: the next line of the trace, decoded and taken
(spec/30_encoding.md rule R108). -/

namespace Sys2Proof.Machine

/-- A step. A run that carries the refusal mark stays refused (R19); a trace with no line left has no step; a reserved
label is refused (R104); any other line's instruction is taken, together with the lines that list the port operations it
performs (R92). -/
def step (s : State) : Host.Outcome State Fault Refusal :=
  match s.refusal with
  | some r => .refused r
  | none =>
    match s.nextLine with
    | none => .fault .noStep
    | some (ln, rest) =>
      match decode ln with
      | .error e => .refused (refusalOf e)
      | .ok i => takeInstr i (s.advance i rest)

/-- `s` with a table word's instruction as the next line of its trace; `nbits` is 8 for every row (R91). The operands
of TICK and INIT, which the table gives no bits, are zeros. A refusal mark is dropped, so that the very next step takes
this line (log entry 1). -/
def State.withFetchWord (s : State) (_nbits w : Nat) : State :=
  { s.pushLine (tableLine w) with refusal := none }

end Sys2Proof.Machine
end

