-- ==== Sys2Proof/Machine/Trace.lean ====
section
/-! DEFINITION. Traces: running steps in order, a loaded trace, stuck and refused traces (spec/30_encoding.md rule
R108), and the pseudo-steps of R109. -/

namespace Sys2Proof.Machine

/-- A line whose label spells a step (R92). -/
def spellsStep (ln : TraceLine) : Bool := (decodeFields ln).isSome

/-- Load a trace. One with a reserved label is refused before it runs (R104, R108): the state carries the mark
(DEDUCED, log entry 14). -/
def loadTrace (lines : List TraceLine) (s : State) : State :=
  match lines.find? (fun ln => !spellsStep ln) with
  | some bad => { s with trace := lines }.markRefused (.reservedLabel bad.label)
  | none => { s with trace := lines }

/-- How a run of a trace ends. -/
inductive RunEnd where
  /-- Every line was taken. -/
  | ended
  /-- The next line has no move (R108), or asserts an invariant; the state still holds the line. -/
  | stuck (f : Fault)
  /-- The run is refused (R19); the state carries the mark. -/
  | refused (r : Refusal)
deriving DecidableEq, Repr

/-- Run at most `n` lines of the state's trace. -/
def runLines : Nat → State → State × RunEnd
  | 0, s => (s, .ended)
  | n + 1, s =>
    match step s with
    | .next t => runLines n t
    | .fault .noStep => (s, .ended)
    | .fault f => (s, .stuck f)
    | .refused r => (s.markRefused r, .refused r)

/-- Load a trace and run it to its end (R108). -/
def runTrace (lines : List TraceLine) (s : State) : State × RunEnd :=
  runLines lines.length (loadTrace lines s)

/-- The pseudo-steps (R109). -/
inductive Pseudo where
  | press (x : Line)
  | apply
  | event (x : Line)
  | wait (d : Time)
  | shutdown
deriving DecidableEq, Repr

/-- APPLY's steps (R109). -/
def applySteps : List Instr := [.smstart, .smexec]

/-- PRESS x's steps from a state: EDGE x, then SIGNAL x if the edge was accepted (R109). The spec does not say what
PRESS x is where EDGE x is not enabled, since there is no state after the EDGE: here it is EDGE x alone, at which the
trace is stuck (DESIGN CHOICE, log entry 26). -/
def pressSteps (x : Line) (c : CoreState) : List Instr :=
  match edge x c with
  | .next d => if d.isr x then [edgeInstr x, signalInstr x] else [edgeInstr x]
  | _ => [edgeInstr x]

/-- EVENT x's steps from a state: PRESS x, then APPLY if SM_PEND = 1 (R109). Where EDGE x is not enabled it is EDGE x
alone, with no APPLY even if SM_PEND = 1 (DESIGN CHOICE, log entry 26). -/
def eventSteps (x : Line) (c : CoreState) : List Instr :=
  match coreSteps Config.lineValid (pressSteps x c) c with
  | .next d => if d.smPend then pressSteps x c ++ applySteps else pressSteps x c
  | _ => pressSteps x c

/-- A pseudo-step's expansion from a state (R109; log entry 20). -/
def Pseudo.expand (p : Pseudo) (c : CoreState) : List Instr :=
  match p with
  | .press x => pressSteps x c
  | .apply => applySteps
  | .event x => eventSteps x c
  | .wait d => [.tick d]
  | .shutdown => [.tdbegin, .tdend]

end Sys2Proof.Machine
end

