-- ==== Sys2Proof/Machine/TraceText.lean ====
section
/-! DEFINITION. The trace syntax (spec/30_encoding.md rule R107), read from characters, with the pseudo-steps of R109;
and a text's trace, encoded after expansion (log entries 19, 20). -/

namespace Sys2Proof.Machine

/-- A blank between words. -/
def isBlank (c : Char) : Bool := c == ' ' || c == '\t' || c == '\r'

/-- A word, if any character was read. -/
def flushWord (w : List Char) : List (List Char) := if w.isEmpty then [] else [w]

/-- The words of a line, up to the comment that `;` starts; `w` is the word being read. -/
def wordsFrom : List Char → List Char → List (List Char)
  | [], w => flushWord w
  | c :: cs, w =>
    if c == ';' then flushWord w
    else if isBlank c then flushWord w ++ wordsFrom cs []
    else wordsFrom cs (w ++ [c])

/-- The words of a line that the model reads: `@<t>` is a comment (R107). -/
def wordsOf (line : List Char) : List (List Char) :=
  (wordsFrom line []).filter (fun w => !(w.head? == some '@'))

/-- The lines of a text; `l` is the line being read. -/
def linesFrom : List Char → List Char → List (List Char)
  | [], l => [l]
  | c :: cs, l => if c == '\n' then l :: linesFrom cs [] else linesFrom cs (l ++ [c])

/-- A decimal digit. -/
def decDigit (c : Char) : Option Nat :=
  if '0'.toNat ≤ c.toNat ∧ c.toNat ≤ '9'.toNat then some (c.toNat - '0'.toNat) else none

/-- A hexadecimal digit. -/
def hexDigit (c : Char) : Option Nat :=
  match decDigit c with
  | some d => some d
  | none =>
    if 'a'.toNat ≤ c.toNat ∧ c.toNat ≤ 'f'.toNat then some (c.toNat - 'a'.toNat + 10)
    else if 'A'.toNat ≤ c.toNat ∧ c.toNat ≤ 'F'.toNat then some (c.toNat - 'A'.toNat + 10)
    else none

/-- Read digits of a base, at least one, and what follows them. -/
def readDigits (digit : Char → Option Nat) (base : Nat) : Bool → Nat → List Char → Option (Nat × List Char)
  | seen, acc, [] => if seen then some (acc, []) else none
  | seen, acc, c :: cs =>
    match digit c with
    | some d => readDigits digit base true (acc * base + d) cs
    | none => if seen then some (acc, c :: cs) else none

/-- A decimal or `0x` natural, and what follows it. -/
def readNat : List Char → Option (Nat × List Char)
  | '0' :: 'x' :: cs => readDigits hexDigit 16 false 0 cs
  | cs => readDigits decDigit 10 false 0 cs

/-- A natural that is the whole word. The spec gives number forms for TICK's d alone; INIT's `<nat>` takes the same two,
decimal and `0x`, with no sign and no time suffix (DESIGN CHOICE, log entry 19). -/
def wholeNat (w : List Char) : Option Nat :=
  match readNat w with
  | some (n, []) => some n
  | _ => none

/-- An integer that is the whole word: INIT's `<int>`, a natural with an optional `-` and no `+` (DESIGN CHOICE, log
entry 19). -/
def wholeInt : List Char → Option Int
  | '-' :: cs => (wholeNat cs).map (fun n => -(n : Int))
  | cs => (wholeNat cs).map (fun n => (n : Int))

/-- The scale of a time suffix (R107). -/
def suffixScale (w : List Char) : Option Nat :=
  if w = [] then some 1
  else if w = "ns".toList then some 1
  else if w = "us".toList then some 1000
  else if w = "ms".toList then some 1000000
  else if w = "s".toList then some 1000000000
  else none

/-- A value that fits 64 bits. -/
def asTime (n : Nat) : Option Time := if n < 2 ^ 64 then some (BitVec.ofNat 64 n) else none

/-- TICK's and WAIT's operand (R107). -/
def readDelta (w : List Char) : Option Time := do
  let (n, rest) ← readNat w
  let k ← suffixScale rest
  asTime (n * k)

/-- The value of `key=value`. -/
def valueOf (key : String) (w : List Char) : Option (List Char) :=
  if (key.toList ++ ['=']).isPrefixOf w then some (w.drop (key.toList.length + 1)) else none

/-- The fail selector's names (R94, R107). -/
def failNames : List (String × BitVec 3) :=
  [("none", 0b000#3), ("acq_inc", 0b001#3), ("acq_dec", 0b010#3), ("acq_out", 0b011#3),
   ("reg_inc", 0b100#3), ("reg_dec", 0b101#3)]

/-- A fail selector by its name. -/
def readFail (w : List Char) : Option (BitVec 3) :=
  (failNames.find? (fun p => p.1.toList == w)).map Prod.snd

/-- A signed value that fits 32 bits. -/
def asMaxLevel (z : Int) : Option (BitVec 32) :=
  if -(2 ^ 31) ≤ z ∧ z < 2 ^ 31 then some (BitVec.ofInt 32 z) else none

/-- INIT's configuration words, in the order of R107. -/
def readCfg (wm wp wi wd wo : List Char) : Option Cfg := do
  let m ← asMaxLevel (← wholeInt (← valueOf "max" wm))
  let p ← asTime (← wholeNat (← valueOf "period" wp))
  let i ← wholeNat (← valueOf "inc" wi)
  let d ← wholeNat (← valueOf "dec" wd)
  let o ← wholeNat (← valueOf "out" wo)
  some ⟨m, p, i, d, o⟩

/-- INIT's operand words; the fail selector defaults to none (R107). -/
def readInit : List (List Char) → Option Instr
  | [wm, wp, wi, wd, wo] => (readCfg wm wp wi wd wo).map (fun c => .init c 0b000#3)
  | [wm, wp, wi, wd, wo, wf] => do
    let c ← readCfg wm wp wi wd wo
    let f ← readFail (← valueOf "fail" wf)
    some (.init c f)
  | _ => none

/-- A line's name in the syntax. -/
def readLine (w : List Char) : Option Line :=
  if w = ['A'] then some .a else if w = ['B'] then some .b else none

/-- What a line of a trace text says. -/
inductive TextLine where
  | blank
  | step (i : Instr)
  | pseudo (p : Pseudo)
deriving DecidableEq, Repr

/-- The steps and pseudo-steps of one word and no operand (R107, R109). -/
def plainWords : List (String × TextLine) :=
  [("SMSTART", .step .smstart), ("SMEXEC", .step .smexec), ("PWM", .step .pwm), ("SREAD", .step .sread),
   ("SINC", .step .sinc), ("SDEC", .step .sdec), ("TDBEGIN", .step .tdbegin), ("TDEND", .step .tdend),
   ("APPLY", .pseudo .apply), ("SHUTDOWN", .pseudo .shutdown)]

/-- A step or pseudo-step with one operand word. -/
def readUnary (m w : List Char) : Option TextLine :=
  if m = "EDGE".toList then (readLine w).map (fun x => .step (edgeInstr x))
  else if m = "SIGNAL".toList then (readLine w).map (fun x => .step (signalInstr x))
  else if m = "TICK".toList then (readDelta w).map (fun d => .step (.tick d))
  else if m = "PRESS".toList then (readLine w).map (fun x => .pseudo (.press x))
  else if m = "EVENT".toList then (readLine w).map (fun x => .pseudo (.event x))
  else if m = "WAIT".toList then (readDelta w).map (fun d => .pseudo (.wait d))
  else none

/-- A line of words; `none` where it is no line of the syntax. -/
def readWords : List (List Char) → Option TextLine
  | [] => some .blank
  | [m] => (plainWords.find? (fun p => p.1.toList == m)).map Prod.snd
  | [m, w] => readUnary m w
  | m :: ws => if m = "INIT".toList then (readInit ws).map .step else none

/-- A line of a trace text (R107). -/
def readTextLine (line : List Char) : Option TextLine := readWords (wordsOf line)

/-- A whole trace text. -/
def readText (text : List Char) : Option (List TextLine) := (linesFrom text []).mapM readTextLine

/-- The steps of a text line in a state. -/
def TextLine.steps (l : TextLine) (s : CoreState) : List Instr :=
  match l with
  | .blank => []
  | .step i => [i]
  | .pseudo p => p.expand s

/-- The state a machine is in after it has run these steps as lines of a trace, so the lines that list a
step's port operations (R92) leave the state as it is; where it gets stuck or is refused, the state it stopped in (log
entry 20). -/
def stateAfter (is : List Instr) (s : State) : State := { (runTrace (is.map encode) s).1 with trace := [] }

/-- A text's steps, its pseudo-steps expanded in the states they are met in (R109). -/
def expandAll : List TextLine → State → List Instr
  | [], _ => []
  | l :: ls, s => l.steps s.core ++ expandAll ls (stateAfter (l.steps s.core) s)

/-- A text's trace: encoded after expansion (R109). -/
def encodeText (ls : List TextLine) (s : State) : List TraceLine := (expandAll ls s).map encode

end Sys2Proof.Machine
end

