-- ==== Sys2Proof/Machine/Enabled.lean ====
section
/-! DEFINITION. The `enabled:` condition of every step, as one function (spec/00_scope.md rule R18). -/

namespace Sys2Proof.Machine

/-- Whether a step can be taken in a state (R18). A port operation is never one: it is no step of
its own, and is performed inside the SMEXEC or PWM that names it (R10, R92, R173). -/
def enabled (i : Instr) (c : CoreState) : Bool :=
  match i with
  | .edgeA => edgeEnabled .a c
  | .edgeB => edgeEnabled .b c
  | .signalA => signalEnabled .a c
  | .signalB => signalEnabled .b c
  | .smstart => smstartEnabled c
  | .smexec => smexecEnabled c
  | .pwm => pwmEnabled c
  | .sread => false
  | .sinc => false
  | .sdec => false
  | .tick _ => true
  | .init _ _ => initEnabled c
  | .tdbegin => tdbeginEnabled c
  | .tdend => tdendEnabled c

end Sys2Proof.Machine
end

