-- ==== Sys2Proof/Machine/Ports.lean ====
section
/-! DEFINITION. The output ports (spec/10_state.md rule R57): light_out, obs and err; and the output line's level as
the output trace tells it (spec/00_scope.md rule R20). -/

namespace Sys2Proof.Machine

/-- light_out: OUT while the core holds the output line (R194), else the OPEN level (R229; DESIGN CHOICE, log
entry 7). -/
def lightOut (c : CoreState) : Bool := if c.heldOut then c.out else Config.outAfterRelease

/-- The port err (R57, R251). -/
def errPort (c : CoreState) : BitVec 2 := c.err.bits

/-- The port obs: one OBS record per pass (R57, R147). What the port shows between passes, before the first one and
after a new INIT the spec leaves open: here it holds the last OBS record of the whole output trace, a new INIT does not
clear it, and it shows none before the first record (DESIGN CHOICE, log entry 25). -/
def obsPort (c : CoreState) : Option (Level × BitVec 8) :=
  c.output.foldl (fun last r => match r with | .obs l p => some (l, p) | .wr _ => last) none

/-- The value of the last WR record, LOW if there is none (R20, R39; DEDUCED, log entry 17). -/
def levelFromRecords (out : List OutRec) : Bool :=
  out.foldl (fun last r => match r with | .wr b => b | .obs _ _ => last) false

/-- The WR records of an output trace, in order. -/
def wrRecords (out : List OutRec) : List OutRec :=
  out.filter (fun r => match r with | .wr _ => true | .obs _ _ => false)

end Sys2Proof.Machine
end

