-- ==== Sys2Proof/Safety.lean ====
section
/-! DEFINITION. What claims about the core are stated in: agents and contexts (spec/00_scope.md rule R10,
spec/60_exceptions.md rule R260), the machine's invariant (spec/10_state.md rule R33, spec/41_state_machine.md rule
R154), runs, fairness and the end of a run (spec/70_reset_and_hazards.md rules R295, R296). -/

namespace Sys2Proof.Machine

/-- The agents (R10). The store port is no agent and takes no steps: its operations are performed inside SMEXEC and PWM (R10, D33). -/
inductive Agent where
  | dbf (x : Line)
  | sm
  | pwm
  | host
  | storePort
deriving DecidableEq, Repr

/-- Which agent takes a step (R10, R92). -/
def agentOf : Instr → Agent
  | .edgeA => .dbf .a
  | .edgeB => .dbf .b
  | .signalA => .dbf .a
  | .signalB => .dbf .b
  | .smstart => .sm
  | .smexec => .sm
  | .pwm => .pwm
  | .sread => .storePort
  | .sinc => .storePort
  | .sdec => .storePort
  | .tick _ => .host
  | .init _ _ => .host
  | .tdbegin => .host
  | .tdend => .host

/-- The execution contexts (R10, R260). -/
inductive Context where
  | interrupt
  | deferred
  | external
deriving DecidableEq, Repr

/-- The context an agent runs in (R10, R260); the store port's operations run in that of SMEXEC and PWM. -/
def contextOf : Agent → Context
  | .dbf _ => .interrupt
  | .sm => .deferred
  | .pwm => .deferred
  | .storePort => .deferred
  | .host => .external

/-- An outcome as far as the core's state goes. -/
def coreOf : Result → CoreResult
  | .next s => .next s.core
  | .fault x => .fault x
  | .refused r => .refused r

/-- `0 <= L <= MAXL` whenever LIFE is not Off (R33). -/
def LevelInRange (c : CoreState) : Prop := c.life ≠ .off → c.level ≤ c.maxl

/-- What every reachable state satisfies. -/
structure MachineInv (c : CoreState) : Prop where
  /-- R33 -/
  levelInRange : LevelInRange c
  /-- MAXL lies in `[0, 2^31 - 1]` (R13, R50) -/
  maxlBound : c.maxl.toNat < 2 ^ 31
  /-- S agrees with L (R154) -/
  satCached : c.sat = satOf c.maxl c.level
  /-- LIFE = Off: nothing is registered, pending, in flight, running or held (R282, R283) -/
  offQuiet : c.life = .off → c.irqA = false ∧ c.irqB = false ∧ c.isrA = false ∧ c.isrB = false ∧
    c.smPend = false ∧ c.smPhase = false ∧ c.pwmRun = false ∧
    c.heldInc = false ∧ c.heldDec = false ∧ c.heldOut = false
  /-- LIFE = Active: registered, running, not cancelled, held (R44 to R46, R49) -/
  activeRuns : c.life = .active → c.irqA = true ∧ c.irqB = true ∧ c.pwmRun = true ∧ c.cancel = false ∧
    c.heldInc = true ∧ c.heldDec = true ∧ c.heldOut = true
  /-- LIFE = Draining: unregistered, no handler, no pending pass, cancelled, still held (R226) -/
  drainingQuiet : c.life = .draining → c.irqA = false ∧ c.irqB = false ∧ c.isrA = false ∧ c.isrB = false ∧
    c.smPend = false ∧ c.pwmRun = false ∧ c.cancel = true ∧
    c.heldInc = true ∧ c.heldDec = true ∧ c.heldOut = true

/-- An infinite run of the core: at every point the scheduled step is taken (R78). -/
def IsRun (valid : Nat → Bool) (st : Nat → CoreState) (act : Nat → Instr) : Prop :=
  ∀ n, coreStep valid (act n) (st n) = .next (st (n + 1))

/-- Weak fairness to one step: if it stays enabled from some point on, it is taken after every point (R296). -/
def WeaklyFairTo (i : Instr) (st : Nat → CoreState) (act : Nat → Instr) : Prop :=
  (∃ n, ∀ m, n ≤ m → enabled i (st m) = true) → ∀ n, ∃ m, n ≤ m ∧ act m = i

/-- An admitted run: weakly fair to SIGNAL x, SMSTART, SMEXEC and PWM, and to nothing else (R296). -/
def FairRun (valid : Nat → Bool) (st : Nat → CoreState) (act : Nat → Instr) : Prop :=
  IsRun valid st act ∧ WeaklyFairTo .signalA st act ∧ WeaklyFairTo .signalB st act ∧
    WeaklyFairTo .smstart st act ∧ WeaklyFairTo .smexec st act ∧ WeaklyFairTo .pwm st act

/-- A run is over: LIFE = Off and no step but TICK and INIT is enabled (R295). -/
def runOver (c : CoreState) : Bool :=
  (c.life == .off) && !enabled .edgeA c && !enabled .edgeB c && !enabled .signalA c && !enabled .signalB c &&
    !enabled .smstart c && !enabled .smexec c && !enabled .pwm c && !enabled .tdbegin c && !enabled .tdend c &&
    !enabled .sread c && !enabled .sinc c && !enabled .sdec c

/-- A step writes DCLK[x]: an accepting EDGE x, or an INIT (R37). -/
def restartsWindow (x : Line) (i : Instr) (c : CoreState) : Bool :=
  match i with
  | .init _ _ => true
  | .edgeA => (x == .a) && edgeAccepted .a c
  | .edgeB => (x == .b) && edgeAccepted .b c
  | _ => false

/-- No step of a sequence is an accepted edge on x or an INIT (R132). -/
def noAcceptedEdge (valid : Nat → Bool) (x : Line) : List Instr → CoreState → Bool
  | [], _ => true
  | i :: is, c =>
    !restartsWindow x i c &&
      match coreStep valid i c with
      | .next d => noAcceptedEdge valid x is d
      | _ => true

/-- No step of a sequence is an INIT. -/
def noInit : List Instr → Bool
  | [] => true
  | .init _ _ :: _ => false
  | _ :: is => noInit is

/-- One pass from a state: a pending request, then SMSTART and SMEXEC (R23, R144). -/
def onePass (c : CoreState) : CoreResult := andThen (smstart { c with smPend := true }) smexec

/-- `n` passes one after the other (R153). -/
def passes : Nat → CoreState → CoreResult
  | 0, c => .next c
  | n + 1, c => andThen (onePass c) (passes n)

end Sys2Proof.Machine
end

