-- ==== Sys2Proof/Certificates/Slice0/Obligations.lean ====
section
/-! DEFINITION. The statements about the core, each taken from the numbered rules its docstring names. -/

open Sys2Proof Sys2Proof.Machine

/-! ### Encoding -/

/-- R92, R94: every label of the step map, written out bit by bit, decodes to its step; TICK and INIT take their
operands from beside the label. -/
def Obligations.ListedLabelsDecode : Prop :=
  decode (bareLine 0b00010000#8) = .ok .edgeA ∧
  decode (bareLine 0b00010001#8) = .ok .edgeB ∧
  decode (bareLine 0b00100000#8) = .ok .signalA ∧
  decode (bareLine 0b00100001#8) = .ok .signalB ∧
  decode (bareLine 0b00110000#8) = .ok .smstart ∧
  decode (bareLine 0b01000000#8) = .ok .smexec ∧
  decode (bareLine 0b01010000#8) = .ok .pwm ∧
  decode (bareLine 0b01100000#8) = .ok .sread ∧
  decode (bareLine 0b01100001#8) = .ok .sinc ∧
  decode (bareLine 0b01100010#8) = .ok .sdec ∧
  (∀ d, decode { bareLine 0b01110000#8 with delta := d } = .ok (.tick d)) ∧
  (∀ cfg fail, decode { bareLine 0b10000000#8 with cfg := cfg, fail := fail } = .ok (.init cfg fail)) ∧
  decode (bareLine 0b10010000#8) = .ok .tdbegin ∧
  decode (bareLine 0b10100000#8) = .ok .tdend

/-- R91, R92, R94: a line decodes to a step exactly when its label is the step's and the operands beside it are the
step's; so decoding an encoded step gives it back, with every operand at every value. -/
def Obligations.DecodeEncodeAgree : Prop :=
  (∀ i, decode (encode i) = .ok i) ∧
  ∀ ln i, decode ln = .ok i ↔
    ln.label = labelOf i ∧ (∀ d, i = .tick d → ln.delta = d) ∧
      (∀ cfg fail, i = .init cfg fail → ln.cfg = cfg ∧ ln.fail = fail)

/-- R104: every label not listed in R92 is reserved, that is OPC 0x0 and 0xB to 0xF with any SUB and the unlisted SUB
values of the other classes; it spells no step. R108, R19: a trace that contains one is refused before it runs, with the
mark set and no register changed (how a trace is loaded and where the mark stands are log entries 1 and 13). That `step`
refuses, and does not fault on, a reserved label it meets in a trace placed in another way is log entry 14. -/
def Obligations.ReservedLabelsRefused : Prop :=
  (∀ ln, decode ln = .error (.reservedLabel ln.label) ↔ ln.label ∉ definedLabels) ∧
  (∀ l : Label, l ∉ definedLabels ↔
    (opcOf l = 0#4 ∨ 0xB#4 ≤ opcOf l ∨
      (1#4 ≤ opcOf l ∧ opcOf l ≤ 2#4 ∧ 2#4 ≤ subOf l) ∨
      (opcOf l = 6#4 ∧ 3#4 ≤ subOf l) ∨
      (3#4 ≤ opcOf l ∧ opcOf l ≤ 0xA#4 ∧ opcOf l ≠ 6#4 ∧ subOf l ≠ 0#4))) ∧
  (∀ s ln rest, s.refusal = none → s.trace = ln :: rest → ln.label ∉ definedLabels →
    step s = .refused (.reservedLabel ln.label)) ∧
  (∀ lines s ln, ln ∈ lines → ln.label ∉ definedLabels →
    ∃ l, l ∉ definedLabels ∧
      runTrace lines s = ({ s with trace := lines, refusal := some (.reservedLabel l) }, .refused (.reservedLabel l)))

/-- R97 to R101: the bits of the enumerations; 0b11 is no state, no event, no action and no lifecycle state. -/
def Obligations.EnumerationBits : Prop :=
  (SatState.off.bits = 0b00#2 ∧ SatState.on.bits = 0b01#2 ∧ SatState.max.bits = 0b10#2 ∧ ∀ x : SatState, x.bits ≠ 0b11#2) ∧
  (Event.none.bits = 0b00#2 ∧ Event.increase.bits = 0b01#2 ∧ Event.decrease.bits = 0b10#2 ∧
    ∀ x : Event, x.bits ≠ 0b11#2) ∧
  (Action.noop.bits = 0b00#2 ∧ Action.increment.bits = 0b01#2 ∧ Action.decrement.bits = 0b10#2 ∧
    ∀ x : Action, x.bits ≠ 0b11#2) ∧
  (Life.off.bits = 0b00#2 ∧ Life.active.bits = 0b01#2 ∧ Life.draining.bits = 0b10#2 ∧ ∀ x : Life, x.bits ≠ 0b11#2) ∧
  (ErrCode.ok.bits = 0b00#2 ∧ ErrCode.invalidLineIdentifier.bits = 0b01#2 ∧
    ErrCode.lineAcquisitionFailed.bits = 0b10#2 ∧ ErrCode.interruptRegistrationFailed.bits = 0b11#2)

/-! ### The step -/

/-- R90, R92, R108, R19; log entries 1, 9 and 13. A step takes the next line of the trace, with the lines after it that
list port operations it performs, and executes the instruction the line decodes to on the state with those lines taken; a
line that names a port operation on its own has no move. Executing an instruction leaves the trace. A state that carries
the refusal mark refuses every step. -/
def Obligations.StepExecutesNextLine : Prop :=
  (∀ s ln rest i, s.refusal = none → s.trace = ln :: rest → decode ln = .ok i →
    (portOpOf i = none → step s = exec i { s with trace := dropListed (performs i s.core) rest }) ∧
    (portOpOf i ≠ none → step s = .fault .notEnabled)) ∧
  (∀ i s t, exec i s = .next t → t.trace = s.trace) ∧
  (∀ s r, s.refusal = some r → step s = .refused r)

/-- R19, R108; log entries 1, 13 and 14. A step that is refused in the course of a run, such as an INIT on one line or
with a reserved fail selector, ends the run there: the state the run leaves carries the mark and is otherwise the state
in which the step was refused, and every run from a marked state is refused at once. -/
def Obligations.RefusalMarksTheRun : Prop :=
  (∀ n s r, step s = .refused r → runLines (n + 1) s = ({ s with refusal := some r }, .refused r)) ∧
  (∀ n s r, s.refusal = some r → runLines (n + 1) s = (s, .refused r)) ∧
  (∀ is (cfg : Cfg) (fail : BitVec 3) is' s t, s.refusal = none → execAll is s = .next t →
    t.life = .off →
    ¬(cfg.idInc ≠ cfg.idDec ∧ cfg.idInc ≠ cfg.idOut ∧ cfg.idDec ≠ cfg.idOut) ∨ fail = 0b110#3 ∨ fail = 0b111#3 →
    ∃ u r, runTrace ((is ++ Instr.init cfg fail :: is').map encode) s = (u, .refused r) ∧ u.refusal = some r ∧
      { u with refusal := none, trace := t.trace } = t)

/-- R18, with the `enabled:` line of every step's rule: a step has no move exactly where its condition is false. That
having no move is the stop notEnabled is log entry 2. TICK always has a move. A port operation is no step of its own
(R92, R173) and has no move in the step relation, in any state (log entry 9). -/
def Obligations.NoMoveOutsideGuard : Prop :=
  ∀ s,
    (exec .edgeA s = .fault .notEnabled ↔ ¬(s.life = .active ∧ s.irqA = true ∧ s.isrA = false)) ∧
    (exec .edgeB s = .fault .notEnabled ↔ ¬(s.life = .active ∧ s.irqB = true ∧ s.isrB = false)) ∧
    (exec .signalA s = .fault .notEnabled ↔ s.isrA = false) ∧
    (exec .signalB s = .fault .notEnabled ↔ s.isrB = false) ∧
    (exec .smstart s = .fault .notEnabled ↔ ¬(s.life = .active ∧ s.smPend = true ∧ s.smPhase = false)) ∧
    (exec .smexec s = .fault .notEnabled ↔ s.smPhase = false) ∧
    (exec .pwm s = .fault .notEnabled ↔ ¬(s.life = .active ∧ s.pwmRun = true ∧ s.cancel = false)) ∧
    (∀ valid, coreStep valid .sread s.core = .fault .notEnabled ∧ coreStep valid .sinc s.core = .fault .notEnabled ∧
      coreStep valid .sdec s.core = .fault .notEnabled) ∧
    (∀ d, exec (.tick d) s ≠ .fault .notEnabled) ∧
    (∀ cfg fail, exec (.init cfg fail) s = .fault .notEnabled ↔ s.life ≠ .off) ∧
    (exec .tdbegin s = .fault .notEnabled ↔ ¬(s.life = .active ∧ s.isrA = false ∧ s.isrB = false)) ∧
    (exec .tdend s = .fault .notEnabled ↔ ¬(s.life = .draining ∧ s.smPhase = false))

/-- R18, R19, R152, R252: in a state that satisfies the invariant, every enabled step completes, except an INIT that the
spec refuses; a step that is not enabled has no move, and no well-formed instruction is refused in any state. A port
operation is no step and is never enabled (R10, R173; log entry 9). -/
def Obligations.EnabledStepsComplete : Prop :=
  (∀ i s, MachineInv s.core → enabled i s.core = true → i.wf = true → ∃ t, exec i s = .next t) ∧
  (∀ valid i c, enabled i c = false → coreStep valid i c = .fault .notEnabled) ∧
  (∀ i s r, i.wf = true → exec i s ≠ .refused r)

/-- R108: a trace runs its steps in order, and is stuck where the next step has no move. The registers and records it
leaves are those of taking the steps one after the other. The trace in the state and the stop notEnabled are log
entries 1 and 2. -/
def Obligations.TraceRunsStepsInOrder : Prop :=
  (∀ is s t, s.refusal = none → execAll is s = .next t →
    ∃ u, runTrace (is.map encode) s = (u, .ended) ∧ u.trace = [] ∧ { u with trace := t.trace } = t) ∧
  (∀ is i is' s t, s.refusal = none → execAll is s = .next t → portOpOf i = none → exec i t = .fault .notEnabled →
    ∃ u, runTrace ((is ++ i :: is').map encode) s = (u, .stuck .notEnabled) ∧ u.trace = (i :: is').map encode ∧
      { u with trace := t.trace } = t)

/-- R92, R146, R192: in a detailed trace the port operations that an SMEXEC or PWM performs may be listed after it, in
order and each at most once, all of them or some: the step takes its own line and those lines together, and leaves the
registers and records of the SMEXEC or PWM alone. Whatever follows it, the lines it takes name operations it performs, in
that order. That such lines are taken with their step is the model's choice (log entry 9); that at most one SINC or SDEC
and one SREAD go with an SMEXEC, and one SREAD with a PWM, is the spec's inference R173. -/
def Obligations.DetailedTraceListsStoreWrite : Prop :=
  (∀ c, performs .smexec c = (match passAction c with
      | .noop => [.read]
      | .increment => [.inc, .read]
      | .decrement => [.dec, .read]) ∧
    performs .pwm c = [.read]) ∧
  (∀ ops lines, ∃ listed taken, List.Sublist listed ops ∧
    taken.map decode = listed.map (fun op => .ok (portInstr op)) ∧ lines = taken ++ dropListed ops lines) ∧
  ∀ i s t ops rest, (i = .smexec ∨ i = .pwm) → s.refusal = none → List.Sublist ops (performs i s.core) →
    s.trace = encode i :: (ops.map (fun op => encode (portInstr op)) ++ rest) →
    (∀ ln j, rest.head? = some ln → decode ln = .ok j → portOpOf j = none) → exec i s = .next t →
    step s = .next { t with trace := rest }

/-- R10, R92, and the spec's inferences R173 and R176 ("only SMEXEC performs SINC and SDEC"): a port operation is never
scheduled on its own. It has no move in the step relation, no sequence of steps has one in it, a trace whose next line
names one is stuck there, and no operation is repeated among those a step performs (log entry 9). -/
def Obligations.PortOperationsAreNotScheduled : Prop :=
  (∀ valid i op c, portOpOf i = some op → coreStep valid i c = .fault .notEnabled) ∧
  (∀ valid is c d, coreSteps valid is c = .next d → ∀ i ∈ is, portOpOf i = none) ∧
  (∀ s ln rest i op, s.refusal = none → s.trace = ln :: rest → decode ln = .ok i → portOpOf i = some op →
    step s = .fault .notEnabled) ∧
  (∀ i c, (performs i c).Nodup)

/-- R109: the expansions of the pseudo-steps; those of PRESS and EVENT where EDGE x is enabled, for the accepted and for
the rejected edge (log entry 20). -/
def Obligations.PseudoStepsExpand : Prop :=
  (∀ s, Pseudo.apply.expand s = [.smstart, .smexec]) ∧
  (∀ s d, (Pseudo.wait d).expand s = [.tick d]) ∧
  (∀ s, Pseudo.shutdown.expand s = [.tdbegin, .tdend]) ∧
  (∀ x s, edgeEnabled x s = true → edgeAccepted x s = true →
    (Pseudo.press x).expand s = [edgeInstr x, signalInstr x] ∧
    (Pseudo.event x).expand s = [edgeInstr x, signalInstr x, .smstart, .smexec]) ∧
  (∀ x s, edgeEnabled x s = true → edgeAccepted x s = false →
    (Pseudo.press x).expand s = [edgeInstr x] ∧
    (Pseudo.event x).expand s = edgeInstr x :: if s.smPend then [.smstart, .smexec] else [])

/-! ### Debounce Filter -/

/-- R121, R122, R123: an enabled EDGE x completes. It accepts iff `(T - DCLK[x]) mod 2^64 >= WINDOW`; then it sets
DCLK[x] to T, E to the line's event and ISR_PHASE[x] to 1, and nothing else (the submission is the separate SIGNAL);
otherwise the state is unchanged. -/
def Obligations.EdgeDecidesByWindow : Prop :=
  (∀ s, s.life = .active → s.irqA = true → s.isrA = false →
    exec .edgeA s =
      .next (if s.window.toNat ≤ (s.time.toNat + 2 ^ 64 - s.dclkA.toNat) % 2 ^ 64
        then { s with dclkA := s.time, event := .increase, isrA := true } else s)) ∧
  (∀ s, s.life = .active → s.irqB = true → s.isrB = false →
    exec .edgeB s =
      .next (if s.window.toNat ≤ (s.time.toNat + 2 ^ 64 - s.dclkB.toNat) % 2 ^ 64
        then { s with dclkB := s.time, event := .decrease, isrB := true } else s))

/-- R126: SIGNAL x is decoded from its label, and with a submission due it completes: it sets SM_PEND (a set SM_PEND
stays set: the submission is collapsed) and clears ISR_PHASE[x], whatever SM_PHASE and LIFE are. -/
def Obligations.SignalSubmitsCoalesced : Prop :=
  decode (bareLine 0x20#8) = .ok .signalA ∧ decode (bareLine 0x21#8) = .ok .signalB ∧
  (∀ s, s.isrA = true → exec .signalA s = .next { s with smPend := true, isrA := false }) ∧
  (∀ s, s.isrB = true → exec .signalB s = .next { s with smPend := true, isrB := false })

/-- R128: the filter of one line neither reads nor writes the clock of the other line, nor its handler's phase, and an
edge on one line does not affect whether an edge on the other is enabled or accepted. Neither is read: from any other
value in them the same step leaves the same state with that value. -/
def Obligations.LinesAreIndependent : Prop :=
  ∀ x y, y ≠ x → ∀ i, (i = edgeInstr x ∨ i = signalInstr x) → ∀ s t, exec i s = .next t →
    t.dclk y = s.dclk y ∧ t.isr y = s.isr y ∧
    edgeAccepted y t.core = edgeAccepted y s.core ∧ edgeEnabled y t.core = edgeEnabled y s.core ∧
    (∀ v, exec i (s.withCore (s.core.setDclk y v)) = .next (t.withCore (t.core.setDclk y v))) ∧
    (∀ v, exec i (s.withCore (s.core.setIsr y v)) = .next (t.withCore (t.core.setIsr y v)))

/-- The spec's inference R132 ("Then e2 is accepted iff (t2 - t1) mod 2^TW >= WINDOW"), from R123: let an edge on x be accepted at `T = s.time`, then any steps with no accepted edge on x (and no INIT), then
an edge on x. It is accepted iff `(t2 - t1) mod 2^64 >= WINDOW`, and changes nothing otherwise. -/
def Obligations.SecondEdgeNeedsWindow : Prop :=
  ∀ x s s1 is s2,
    exec (edgeInstr x) s = .next s1 → edgeAccepted x s.core = true →
    noAcceptedEdge Config.lineValid x is s1.core = true → execAll is s1 = .next s2 → edgeEnabled x s2.core = true →
    exec (edgeInstr x) s2 =
      .next (if s.window.toNat ≤ (s2.time.toNat + 2 ^ 64 - s.time.toNat) % 2 ^ 64 then s2.withCore (acceptEdge x s2.core) else s2)

/-- The spec's inference R130 ("So an edge on either line is rejected until T - T0 >= WINDOW"), from R37 and R123:
after a successful INIT at T0, under any LINE_VALID predicate, an edge on either line is rejected, with nothing changed, while no edge on it has been
accepted since and `(T - T0) mod 2^64 < WINDOW`. -/
def Obligations.QuietWindowAfterInit : Prop :=
  ∀ valid cfg fail s s1, initWith valid cfg fail s = .next s1 → s1.life = .active →
    s1.dclkA = s.time ∧ s1.dclkB = s.time ∧
    ∀ x is s2, noAcceptedEdge valid x is s1 = true → coreSteps valid is s1 = .next s2 → edgeEnabled x s2 = true →
      (s2.time.toNat + 2 ^ 64 - s.time.toNat) % 2 ^ 64 < s.window.toNat →
      coreStep valid (edgeInstr x) s2 = .next s2

/-- R127, R149, R286: two accepted edges before a pass leave one pending pass, which reads the later event; the
earlier event is lost, and which one is later depends on the order. Two accepted edges on one line, a window or more
apart, leave one pass too. -/
def Obligations.LastEventWins : Prop :=
  ∀ s, s.life = .active → s.irqA = true → s.irqB = true → s.isrA = false → s.isrB = false → s.smPhase = false →
    edgeAccepted .a s.core = true → edgeAccepted .b s.core = true → s.sat = satOf s.maxl s.level → s.level ≤ s.maxl →
    (∃ t, execAll [.edgeA, .signalA, .edgeB, .signalB, .smstart, .smexec] s = .next t ∧
      t.smPend = false ∧ t.output.length = s.output.length + 1 ∧
      t.level = if s.level = 0#32 then s.level else s.level - 1#32) ∧
    (∃ t, execAll [.edgeB, .signalB, .edgeA, .signalA, .smstart, .smexec] s = .next t ∧
      t.smPend = false ∧ t.output.length = s.output.length + 1 ∧
      t.level = if s.level = s.maxl then s.level else s.level + 1#32) ∧
    (∀ d, s.window ≤ d →
      (∃ t, execAll [.edgeA, .signalA, .tick d, .edgeA, .signalA, .smstart, .smexec] s = .next t ∧
        t.dclkA = s.time + d ∧ t.smPend = false ∧ t.output.length = s.output.length + 1 ∧
        t.level = if s.level = s.maxl then s.level else s.level + 1#32) ∧
      (∃ t, execAll [.edgeB, .signalB, .tick d, .edgeB, .signalB, .smstart, .smexec] s = .next t ∧
        t.dclkB = s.time + d ∧ t.smPend = false ∧ t.output.length = s.output.length + 1 ∧
        t.level = if s.level = 0#32 then s.level else s.level - 1#32))

/-- The spec's inference R288 ("A model must admit this order"), from R122, R126, R145, R146: an edge whose EDGE falls before an SMEXEC and whose SIGNAL falls after the SMSTART of that pass is applied by
two passes; the order is admitted, and the level falls by two. -/
def Obligations.OneEventAppliedTwice : Prop :=
  ∀ s, s.life = .active → s.irqB = true → s.isrB = false → s.smPend = true → s.smPhase = false →
    edgeAccepted .b s.core = true → s.sat = satOf s.maxl s.level → 2#32 ≤ s.level → s.level ≤ s.maxl →
    ∃ t, execAll [.edgeB, .smstart, .smexec, .signalB, .smstart, .smexec] s = .next t ∧
      t.level = s.level - 2#32 ∧ t.smPend = false ∧ t.smPhase = false ∧ t.event = .decrease

/-! ### State Machine -/

/-- R140, R103: the nine entries of the transition table, and the same table as the read-only table addressed by the
bits of S and E; the seven other addresses are no entries. -/
def Obligations.TransitionTable : Prop :=
  (tableAction .off .none = .noop ∧ tableAction .off .increase = .increment ∧ tableAction .off .decrease = .noop ∧
    tableAction .on .none = .noop ∧ tableAction .on .increase = .increment ∧ tableAction .on .decrease = .decrement ∧
    tableAction .max .none = .noop ∧ tableAction .max .increase = .noop ∧ tableAction .max .decrease = .decrement) ∧
  (∀ s e, romAction (s.bits ++ e.bits) = some (tableAction s e).bits) ∧
  (∀ addr : BitVec 4, romAction addr = none ↔ (addr.extractLsb' 2 2 = 0b11#2 ∨ addr.extractLsb' 0 2 = 0b11#2))

/-- R35: Off iff the level is 0, else Max iff it is MAXL, else On; with MAXL = 0 the state of level 0 is Off. -/
def Obligations.SaturationFunction : Prop :=
  (∀ maxl l, (satOf maxl l = .off ↔ l = 0#32) ∧ (satOf maxl l = .max ↔ l ≠ 0#32 ∧ l = maxl) ∧
    (satOf maxl l = .on ↔ l ≠ 0#32 ∧ l ≠ maxl)) ∧
  satOf 0#32 0#32 = .off

/-- R145: SMSTART is decoded from its label, and where it is enabled it consumes the request and claims the pass. -/
def Obligations.SmstartClaimsPass : Prop :=
  decode (bareLine 0x30#8) = .ok .smstart ∧
  ∀ s, s.life = .active → s.smPend = true → s.smPhase = false →
    exec .smstart s = .next { s with smPend := false, smPhase := true }

/-- R146, R147, R140, R141, R35: a pass in flight, in a state where S agrees with L and L is in range, completes
whatever LIFE is. The level goes up by one on Increase below MAXL, down by one on Decrease above 0, and else stays; S is
recomputed, one OBS record is emitted, E is not cleared, and no other register changes. -/
def Obligations.SmexecRunsPass : Prop :=
  ∀ s l, s.smPhase = true → s.sat = satOf s.maxl s.level → s.level ≤ s.maxl →
    l = (if s.event = .increase ∧ s.level ≠ s.maxl then s.level + 1#32
         else if s.event = .decrease ∧ s.level ≠ 0#32 then s.level - 1#32 else s.level) →
    exec .smexec s = .next
      { s with
        level := l
        sat := if l = 0#32 then .off else if l = s.maxl then .max else .on
        smPhase := false
        output := s.output ++ [.obs l (BitVec.ofNat 8 (if s.maxl = 0#32 then 0 else 100 * l.toNat / s.maxl.toNat))] }

/-- R141, with R146 and R147 for the rest of the pass: with MAXL = 0 the action of every pass is no-op, whatever S and E
hold, and S then holds Off. -/
def Obligations.DegenerateMaxLevel : Prop :=
  ∀ s, s.smPhase = true → s.maxl = 0#32 → s.level = 0#32 →
    passAction s.core = .noop ∧
    exec .smexec s = .next
      { s with sat := .off, smPhase := false, output := s.output ++ [.obs 0#32 0#8] }

/-- R147: an SMEXEC emits exactly one OBS record, with the new level and `(100 * l) div MAXL` (0 when MAXL = 0), which
lies in [0, 100]; no other step emits an OBS record. -/
def Obligations.OneObservationPerPass : Prop :=
  (∀ s t, exec .smexec s = .next t →
    ∃ p : BitVec 8, t.output = s.output ++ [.obs t.level p] ∧ p.toNat ≤ 100 ∧
      p.toNat = if t.maxl = 0#32 then 0 else 100 * t.level.toNat / t.maxl.toNat) ∧
  (∀ i s t, i ≠ .smexec → exec i s = .next t →
    t.output = s.output ∨ ∃ b, t.output = s.output ++ [.wr b])

/-- The spec's inference R153 ("the final level is min(N, MAXL)"), from R140, R141, R142: `n` passes that read Increase from level 0 end at `min(n, MAXL)`; `n` passes that read Decrease from MAXL end
at `max(MAXL - n, 0)`. -/
def Obligations.PassesSaturate : Prop :=
  ∀ n (s : CoreState), s.life = .active → s.smPhase = false →
    (s.event = .increase → s.level = 0#32 → s.sat = .off →
      ∃ t, passes n s = .next t ∧ t.level.toNat = min n s.maxl.toNat) ∧
    (s.event = .decrease → s.level = s.maxl → s.sat = satOf s.maxl s.maxl →
      ∃ t, passes n s = .next t ∧ t.level.toNat = s.maxl.toNat - n)

/-! ### Shared Brightness Store -/

/-- R170, R171, R172: SREAD's result is L, and it writes no register; SINC adds one to L below MAXL; SDEC takes one from L
above 0; the results are exact, and no other register is written. That the Result is a value, and stands in no field, is
log entry 10; where a trace may name these operations is log entry 9. -/
def Obligations.StorePortOperations : Prop :=
  (∀ s, storeRead s.core = s.level ∧ exec .sread s = .next s) ∧
  (∀ s, s.level < s.maxl →
    ∃ l : Level, l.toNat = s.level.toNat + 1 ∧ exec .sinc s = .next { s with level := l }) ∧
  (∀ s, s.level ≠ 0#32 →
    ∃ l : Level, l.toNat + 1 = s.level.toNat ∧ exec .sdec s = .next { s with level := l })

/-- R174 (which lets a model choose the fault), log entry 11: an SINC at `L >= MAXL` and an SDEC at `L = 0` stop with
"invariant violated" and give no wrapped value. -/
def Obligations.StoreBoundsFault : Prop :=
  (∀ s, s.maxl ≤ s.level → exec .sinc s = .fault .invariantViolated) ∧
  (∀ s, s.level = 0#32 → exec .sdec s = .fault .invariantViolated)

/-! ### PWM Engine -/

/-- R193, with R192 for the condition and the frame: at level 0 an enabled iteration forces the output LOW, at level MAXL > 0 HIGH; it writes OUT and emits WR
every time, and neither reads nor writes PCLK. -/
def Obligations.PwmForcesBoundaries : Prop :=
  ∀ s, s.life = .active → s.pwmRun = true → s.cancel = false →
    (s.level = 0#32 → exec .pwm s = .next
      { s with out := false, output := s.output ++ [.wr false] }) ∧
    (s.level ≠ 0#32 → s.level = s.maxl → exec .pwm s = .next
      { s with out := true, output := s.output ++ [.wr true] })

/-- R195, with the dwells of R191, the record of R194 and the counter of R196: at an interior level an enabled iteration flips OUT, emits
the new value and records the time sample, if the elapsed time has reached the dwell of the current output level; else
no register changes. -/
def Obligations.PwmFlipsWhenDwellReached : Prop :=
  ∀ s hi, s.life = .active → s.pwmRun = true → s.cancel = false → 0#32 < s.level → s.level < s.maxl →
    hi = s.period.toNat * s.level.toNat / s.maxl.toNat →
    exec .pwm s =
      if (if s.out then hi else s.period.toNat - hi) ≤ (s.time.toNat + 2 ^ 64 - s.pclk.toNat) % 2 ^ 64
        then .next { s with out := !s.out, pclk := s.time, output := s.output ++ [.wr (!s.out)] }
        else .next s

/-- R191: for an interior level the two dwells are the truncated quotient of the exact product and the rest of the
period; both fit 64 bits and the LOW dwell is not negative. -/
def Obligations.DwellsSplitPeriod : Prop :=
  ∀ (period : Time) (maxl l : Level), 0#32 < l → l < maxl →
    hiDwell period maxl l * maxl.toNat ≤ period.toNat * l.toNat ∧
    period.toNat * l.toNat < (hiDwell period maxl l + 1) * maxl.toNat ∧
    hiDwell period maxl l + loDwell period maxl l = period.toNat ∧
    hiDwell period maxl l < 2 ^ 64 ∧ loDwell period maxl l < 2 ^ 64

/-- The spec's inference R200 ("every interior iteration flips OUT"), from R191 and R195: with PERIOD = 0 every interior iteration flips OUT, whatever the level and the time. -/
def Obligations.ZeroPeriodAlwaysFlips : Prop :=
  ∀ s, s.life = .active → s.pwmRun = true → s.cancel = false → 0#32 < s.level → s.level < s.maxl →
    s.period = 0#64 →
    hiDwell s.period s.maxl s.level = 0 ∧ loDwell s.period s.maxl s.level = 0 ∧
    exec .pwm s = .next
      { s with out := !s.out, pclk := s.time, output := s.output ++ [.wr (!s.out)] }

/-- The spec's inference R202 ("the line stays HIGH for hi_dwell(l) and LOW for lo_dwell(l) in turn"), from R191 and
R195: at a fixed interior level, from a HIGH transition just made, no iteration before hi_dwell flips, the iteration
at hi_dwell writes LOW, and the one lo_dwell later writes HIGH: one PERIOD has passed and the engine is where it was. -/
def Obligations.PwmWaveform : Prop :=
  ∀ s hi lo, s.life = .active → s.pwmRun = true → s.cancel = false → 0#32 < s.level → s.level < s.maxl →
    s.out = true → s.pclk = s.time →
    hi = BitVec.ofNat 64 (hiDwell s.period s.maxl s.level) → lo = BitVec.ofNat 64 (loDwell s.period s.maxl s.level) →
    (∀ d, d < hi → execAll [.tick d, .pwm] s =
      .next { s with time := s.time + d }) ∧
    execAll [.tick hi, .pwm] s =
      .next { s with time := s.time + hi, pclk := s.time + hi, out := false,
                     output := s.output ++ [.wr false] } ∧
    (∀ d, d < lo → execAll [.tick hi, .pwm, .tick d, .pwm] s =
      .next { s with time := s.time + hi + d, pclk := s.time + hi, out := false,
                     output := s.output ++ [.wr false] }) ∧
    execAll [.tick hi, .pwm, .tick lo, .pwm] s =
      .next { s with time := s.time + s.period, pclk := s.time + s.period,
                     output := s.output ++ [.wr false, .wr true] }

/-- R190: the PWM step is enabled after a successful INIT, under every LINE_VALID predicate (D29), and stays so under every step but TDBEGIN, which disables it. -/
def Obligations.PwmRunsUntilTeardown : Prop :=
  (∀ valid cfg fail s t, initWith valid cfg fail s = .next t → t.life = .active → pwmEnabled t = true) ∧
  (∀ i s t, pwmEnabled s.core = true → exec i s = .next t → (pwmEnabled t.core = true ↔ i ≠ .tdbegin))

/-- The spec's inference R79, from R78 (steps in any order, each one indivisible), with R146, R147, R192, R193 and R195:
any iteration ordered before a pass sees the old level, ordered after it the new one, and both orders are admitted.
`drive l` is the value an iteration that reads level l writes, if it writes one. -/
def Obligations.PwmSeesOldOrNewLevel : Prop :=
  ∀ (s : State) (drive : Level → Option Bool) (l : Level) (pct : BitVec 8),
    s.life = .active → s.pwmRun = true → s.cancel = false → s.smPhase = true →
    s.sat = satOf s.maxl s.level → s.level ≤ s.maxl →
    (∀ x, drive x = if x = 0#32 then some false else if x = s.maxl then some true
      else if (if s.out then s.period.toNat * x.toNat / s.maxl.toNat
               else s.period.toNat - s.period.toNat * x.toNat / s.maxl.toNat)
          ≤ (s.time.toNat + 2 ^ 64 - s.pclk.toNat) % 2 ^ 64
        then some (!s.out) else none) →
    l = (if s.event = .increase ∧ s.level ≠ s.maxl then s.level + 1#32
         else if s.event = .decrease ∧ s.level ≠ 0#32 then s.level - 1#32 else s.level) →
    pct = BitVec.ofNat 8 (if s.maxl = 0#32 then 0 else 100 * l.toNat / s.maxl.toNat) →
    (∃ t, execAll [.pwm, .smexec] s = .next t ∧ t.level = l ∧ t.out = (drive s.level).getD s.out ∧
      t.output = s.output ++ (drive s.level).toList.map .wr ++ [.obs l pct]) ∧
    (∃ t, execAll [.smexec, .pwm] s = .next t ∧ t.level = l ∧ t.out = (drive l).getD s.out ∧
      t.output = s.output ++ [.obs l pct] ++ (drive l).toList.map .wr)

/-- R194, R20: where OUT is the value of the last WR record, every step but INIT keeps it so, and light_out then shows
that value while the core holds the line. That INIT is left out, since it sets OUT with no record, and that an output
trace with no WR record counts as LOW, are log entry 17. -/
def Obligations.OutputLineFollowsRecords : Prop :=
  ∀ i s t, (∀ cfg fail, i ≠ .init cfg fail) → levelFromRecords s.output = s.out → exec i s = .next t →
    levelFromRecords t.output = t.out ∧ (t.heldOut = true → lightOut t.core = levelFromRecords t.output)

/-- R57, R194, R251: while the core holds the output line, light_out shows OUT; err shows the code of the INIT just
taken, 00 after a successful one; an SMEXEC leaves its record on obs, with the new level and its percentage. That obs
keeps that record through every other step, a new INIT included, is the model's choice (log entry 25). -/
def Obligations.OutputPorts : Prop :=
  (∀ s : CoreState, s.heldOut = true → lightOut s = s.out) ∧
  (∀ valid cfg fail s t, initWith valid cfg fail s = .next t →
    (t.life = .active ∧ errPort t = 0b00#2) ∨
    (t.life = .off ∧ (errPort t = 0b01#2 ∨ errPort t = 0b10#2 ∨ errPort t = 0b11#2))) ∧
  (∀ i s t, (∀ cfg fail, i ≠ .init cfg fail) → exec i s = .next t → errPort t.core = errPort s.core) ∧
  (∀ s t, exec .smexec s = .next t → ∃ p : BitVec 8, obsPort t.core = some (t.level, p) ∧
    p.toNat = if t.maxl = 0#32 then 0 else 100 * t.level.toNat / t.maxl.toNat) ∧
  (∀ i s t, i ≠ .smexec → exec i s = .next t → obsPort t.core = obsPort s.core)

/-- R197, and the spec's inference R231 ("No WR record comes after it"), from R226, R194, R197: after TDBEGIN, and until a new INIT, no step writes the output line: no WR record follows and OUT
stays. -/
def Obligations.NoOutputWriteAfterTeardownBegins : Prop :=
  ∀ s is t, noInit is = true → execAll (.tdbegin :: is) s = .next t →
    wrRecords t.output = wrRecords s.output ∧ t.out = s.out

/-! ### Host and lifecycle -/

/-- R220: TICK d is decoded from its label and operand, and in every state adds d to T modulo 2^64 and changes nothing
else. -/
def Obligations.TickAdvancesTime : Prop :=
  (∀ d, decode { bareLine 0x70#8 with delta := d } = .ok (.tick d)) ∧
  ∀ d s, ∃ v : Time, v.toNat = (s.time.toNat + d.toNat) % 2 ^ 64 ∧ exec (.tick d) s = .next { s with time := v }

/-- The spec's inference R221 ("no step but TICK writes T, and TICK only adds"), from R220: no step but TICK writes T, and TICK only adds, so apart from wrap-around T never goes back. -/
def Obligations.TimeNeverGoesBack : Prop :=
  (∀ i s t, exec i s = .next t → (∀ d, i ≠ .tick d) → t.time = s.time) ∧
  (∀ d s t, exec (.tick d) s = .next t → s.time.toNat + d.toNat < 2 ^ 64 → s.time.toNat ≤ t.time.toNat)

/-- R222, R58, R280: an INIT with distinct valid identifiers and no provider failure, while LIFE = Off, leaves every
register at its after-INIT value, T and WINDOW unchanged, and emits no record. It holds for every LINE_VALID predicate
(D29), and the INIT step is the one under the OPEN parameter (log entry 6). -/
def Obligations.InitBuildsEveryRegister : Prop :=
  (∀ cfg fail s, exec (.init cfg fail) s = onCore (initWith Config.lineValid cfg fail) s) ∧
  ∀ valid cfg (s : CoreState), s.life = .off → cfg.idInc ≠ cfg.idDec → cfg.idInc ≠ cfg.idOut → cfg.idDec ≠ cfg.idOut →
    valid cfg.idInc = true → valid cfg.idDec = true → valid cfg.idOut = true →
    ∃ maxl : Level, (maxl.toNat : Int) = max 0 cfg.maxLevel.toInt ∧
      initWith valid cfg 0b000#3 s = .next
        { s with
          level := 0#32, sat := .off, event := .none
          dclkA := s.time, dclkB := s.time, pclk := s.time, out := false
          smPend := false, smPhase := false, isrA := false, isrB := false, irqA := true, irqB := true
          pwmRun := true, cancel := false, life := .active, err := .ok
          heldInc := true, heldDec := true, heldOut := true
          maxl := maxl, period := cfg.periodNs
          idInc := cfg.idInc, idDec := cfg.idDec, idOut := cfg.idOut }

/-- R222, R253: while LIFE = Off, an INIT with distinct identifiers and a defined fail selector completes, whatever
LINE_VALID is: it is Active with ERR = OK exactly if LINE_VALID holds of the three identifiers and no provider call
fails, and Off with the one error of the first check that fails otherwise. T and WINDOW are unchanged and no record is
emitted. -/
def Obligations.InitCompletes : Prop :=
  ∀ cfg fail s, s.life = .off → cfg.idInc ≠ cfg.idDec → cfg.idInc ≠ cfg.idOut → cfg.idDec ≠ cfg.idOut →
    fail ≠ 0b110#3 → fail ≠ 0b111#3 →
    ∃ t, exec (.init cfg fail) s = .next t ∧ t.time = s.time ∧ t.window = s.window ∧ t.output = s.output ∧
      t.err = (if Config.lineValid cfg.idInc && Config.lineValid cfg.idDec && Config.lineValid cfg.idOut then
          (if fail = 0b000#3 then .ok else if fail.ule 0b011#3 then .lineAcquisitionFailed
           else .interruptRegistrationFailed)
        else .invalidLineIdentifier) ∧
      t.life = (if t.err = .ok then .active else .off)

/-- R225, R250, R253: the startup errors, in their order, under every LINE_VALID predicate (D29); each is a next state
in which ERR holds the one error and nothing else of the core has changed (log entry 12: the error joins the list of
errors raised). -/
def Obligations.InitErrorsRollBack : Prop :=
  ∀ valid cfg fail (s : CoreState), s.life = .off → cfg.distinctLines = true → fail ≠ 0b110#3 → fail ≠ 0b111#3 →
    (¬(valid cfg.idInc = true ∧ valid cfg.idDec = true ∧ valid cfg.idOut = true) →
      initWith valid cfg fail s = .next { s with
        err := .invalidLineIdentifier, startupErrors := s.startupErrors ++ [.invalidLineIdentifier] }) ∧
    (valid cfg.idInc = true → valid cfg.idDec = true → valid cfg.idOut = true →
      (fail = 0b001#3 ∨ fail = 0b010#3 ∨ fail = 0b011#3 →
        initWith valid cfg fail s = .next { s with
          err := .lineAcquisitionFailed, startupErrors := s.startupErrors ++ [.lineAcquisitionFailed] }) ∧
      (fail = 0b100#3 ∨ fail = 0b101#3 →
        initWith valid cfg fail s = .next { s with
          err := .interruptRegistrationFailed, startupErrors := s.startupErrors ++ [.interruptRegistrationFailed] }))

/-- R224, R105, R222: while LIFE = Off, an INIT whose identifiers are not pairwise distinct is refused, and so is one
with distinct identifiers and a reserved fail selector. That a reserved selector is refused at the INIT step, while
LIFE = Off and after the same-line check, is log entry 14. -/
def Obligations.InitRefusals : Prop :=
  ∀ cfg fail s, s.life = .off →
    (cfg.idInc = cfg.idDec ∨ cfg.idInc = cfg.idOut ∨ cfg.idDec = cfg.idOut →
      exec (.init cfg fail) s = .refused .sameLine) ∧
    (cfg.idInc ≠ cfg.idDec → cfg.idInc ≠ cfg.idOut → cfg.idDec ≠ cfg.idOut → fail = 0b110#3 ∨ fail = 0b111#3 →
      exec (.init cfg fail) s = .refused .reservedFail)

/-- R226: TDBEGIN is decoded from its label; enabled, it unregisters both interrupts, discards a pending pass, cancels
the PWM task and drains; a pass in flight and every other register are left. -/
def Obligations.TdbeginCancels : Prop :=
  decode (bareLine 0x90#8) = .ok .tdbegin ∧
  ∀ s, s.life = .active → s.isrA = false → s.isrB = false →
    exec .tdbegin s =
      .next { s with irqA := false, irqB := false, smPend := false, cancel := true, pwmRun := false,
                     life := .draining }

/-- R228: TDEND is decoded from its label; enabled, it releases the three lines and LIFE is Off; the data registers keep
their values. -/
def Obligations.TdendReleases : Prop :=
  decode (bareLine 0xA0#8) = .ok .tdend ∧
  ∀ s, s.life = .draining → s.smPhase = false →
    exec .tdend s = .next { s with heldInc := false, heldDec := false, heldOut := false, life := .off }

/-- R226, R227, and the spec's inference R289 ("an edge accepted and signalled but whose pass had not started is
discarded"): teardown drops a pass that is pending and not started (L, S and the output trace are as before, and the
pass cannot start), and lets a pass in flight run to its end and emit its one record. -/
def Obligations.TeardownDropsPendingPass : Prop :=
  ∀ s, s.life = .active → s.isrA = false → s.isrB = false →
    (s.smPhase = false → ∃ t, execAll [.tdbegin, .tdend] s = .next t ∧ t.life = .off ∧
      t.level = s.level ∧ t.sat = s.sat ∧ t.output = s.output ∧ exec .smstart t = .fault .notEnabled) ∧
    (s.smPhase = true → s.sat = satOf s.maxl s.level → s.level ≤ s.maxl →
      (∃ u, exec .tdbegin s = .next u ∧ exec .tdend u = .fault .notEnabled) ∧
      ∃ t, execAll [.tdbegin, .smexec, .tdend] s = .next t ∧ t.life = .off ∧
        t.output.length = s.output.length + 1 ∧ wrRecords t.output = wrRecords s.output)

/-- R230: INIT is enabled again after TDEND and after a failed INIT, and a successful INIT leaves nothing of the
registers before it, under every LINE_VALID predicate (D29): two Off states with the same time, window, records and
refusal mark end in one state. -/
def Obligations.NothingSurvivesInit : Prop :=
  (∀ s t, exec .tdend s = .next t → enabled (.init Cfg.zero 0b000#3) t.core = true) ∧
  (∀ valid cfg fail s t, initWith valid cfg fail s = .next t → t.life ≠ .active →
    enabled (.init Cfg.zero 0b000#3) t = true) ∧
  (∀ valid cfg fail (s s' : CoreState) t, s.time = s'.time → s.window = s'.window → s.output = s'.output →
    s.startupErrors = s'.startupErrors → s.refusal = s'.refusal → s'.life = .off →
    initWith valid cfg fail s = .next t → t.life = .active → initWith valid cfg fail s' = .next t)

/-- The spec's inference R281 ("the first steps a run can take after INIT are PWM, TICK, EDGE A, EDGE B and TDBEGIN"),
from R222, R122, R192, R226: after a successful INIT (the one kind that leaves LIFE Active) both interrupts are enabled, PWM runs and no
pass is pending; the steps that can be taken first are PWM, TICK, EDGE A, EDGE B and TDBEGIN, whatever LINE_VALID is
(D29). A port operation is never one of them (log entry 9). -/
def Obligations.FirstStepsAfterInit : Prop :=
  ∀ valid cfg fail s t, initWith valid cfg fail s = .next t → t.life = .active →
    t.irqA = true ∧ t.irqB = true ∧ t.pwmRun = true ∧ t.cancel = false ∧ t.smPend = false ∧
    ∀ i, (enabled i t = true ↔ i = .pwm ∨ (∃ d, i = .tick d) ∨ i = .edgeA ∨ i = .edgeB ∨ i = .tdbegin)

/-- R58's power-up column and R53, and the spec's inference R282 ("The only steps enabled are TICK and INIT"): the
power-up values the spec gives, and the only steps enabled then. That State.reset is the power-up state is the model's
choice (log entry 4), and so is that the window has its default there (log entry 8). -/
def Obligations.ResetIsPowerUp : Prop :=
  State.reset.life = .off ∧ State.reset.irqA = false ∧ State.reset.irqB = false ∧ State.reset.isrA = false ∧
  State.reset.isrB = false ∧ State.reset.smPend = false ∧ State.reset.smPhase = false ∧ State.reset.pwmRun = false ∧
  State.reset.cancel = false ∧ State.reset.heldInc = false ∧ State.reset.heldDec = false ∧
  State.reset.heldOut = false ∧ State.reset.err = .ok ∧ State.reset.window = 200000000#64 ∧
  State.reset.output = [] ∧ State.reset.refusal = none ∧
  ∀ i, enabled i State.reset.core = true ↔ (∃ d, i = .tick d) ∨ ∃ cfg fail, i = .init cfg fail

/-! ### The whole machine -/

/-- The invariant holds at power-up: R58's power-up column, and for the data registers, which hold no value there, the
model's choice of zero (log entry 4). -/
def Obligations.InvariantAtReset : Prop := MachineInv State.reset.core

/-- The spec's inferences R33 ("whenever LIFE is not Off, 0 <= L <= MAXL"), R154 ("S = sat(L) holds") and R282, from
R35, R140, R141, R146, R222, R226, R228: every step, of the core's relation under every LINE_VALID predicate (D29) and of
the machine, keeps the invariant: the level in range, S equal to sat(L), the control registers of each lifecycle state. -/
def Obligations.EveryStepKeepsInvariant : Prop :=
  (∀ valid i c d, MachineInv c → coreStep valid i c = .next d → MachineInv d) ∧
  (∀ s t, MachineInv s.core → step s = .next t → MachineInv t.core)

/-- R174, and the spec's inference R33 ("It cannot fail under the rules of this spec"): no step whatever takes the level
out of `[0, MAXL]`, in any state where it is in range. That the level an SMEXEC or an SINC leaves is in range
whatever the state before holds by the model's assertion (log entry 11). -/
def Obligations.LevelNeverLeavesRange : Prop :=
  (∀ s t, LevelInRange s.core → step s = .next t → LevelInRange t.core) ∧
  (∀ i s t, (i = .smexec ∨ i = .sinc) → exec i s = .next t → t.level ≤ t.maxl)

/-- R58's "written by" column, with R14, R32, R36 to R53, R76: what each register's change says about the step. SINC
and SDEC write L as a part of SMEXEC and are no steps of their own; of the steps, SMEXEC and INIT alone write L (log
entry 9). -/
def Obligations.RegisterWriters : Prop :=
  ∀ i s t, exec i s = .next t →
    (portOpOf i = none → t.level ≠ s.level → i = .smexec ∨ ∃ cfg fail, i = .init cfg fail) ∧
    (t.level ≠ s.level → i = .smexec ∨ (∃ cfg fail, i = .init cfg fail) ∨ i = .sinc ∨ i = .sdec) ∧
    (t.time ≠ s.time → ∃ d, i = .tick d) ∧
    (t.sat ≠ s.sat → i = .smexec ∨ ∃ cfg fail, i = .init cfg fail) ∧
    (t.event ≠ s.event → i = .edgeA ∨ i = .edgeB ∨ ∃ cfg fail, i = .init cfg fail) ∧
    (t.dclkA ≠ s.dclkA → i = .edgeA ∨ ∃ cfg fail, i = .init cfg fail) ∧
    (t.dclkB ≠ s.dclkB → i = .edgeB ∨ ∃ cfg fail, i = .init cfg fail) ∧
    (t.pclk ≠ s.pclk ∨ t.out ≠ s.out → i = .pwm ∨ ∃ cfg fail, i = .init cfg fail) ∧
    (t.smPend ≠ s.smPend → i = .signalA ∨ i = .signalB ∨ i = .smstart ∨ i = .tdbegin ∨ ∃ cfg fail, i = .init cfg fail) ∧
    (t.smPhase ≠ s.smPhase → i = .smstart ∨ i = .smexec ∨ ∃ cfg fail, i = .init cfg fail) ∧
    (t.isrA ≠ s.isrA → i = .edgeA ∨ i = .signalA ∨ ∃ cfg fail, i = .init cfg fail) ∧
    (t.isrB ≠ s.isrB → i = .edgeB ∨ i = .signalB ∨ ∃ cfg fail, i = .init cfg fail) ∧
    (t.irqA ≠ s.irqA ∨ t.irqB ≠ s.irqB ∨ t.pwmRun ≠ s.pwmRun ∨ t.cancel ≠ s.cancel →
      i = .tdbegin ∨ ∃ cfg fail, i = .init cfg fail) ∧
    (t.life ≠ s.life → i = .tdbegin ∨ i = .tdend ∨ ∃ cfg fail, i = .init cfg fail) ∧
    (t.heldInc ≠ s.heldInc ∨ t.heldDec ≠ s.heldDec ∨ t.heldOut ≠ s.heldOut →
      i = .tdend ∨ ∃ cfg fail, i = .init cfg fail) ∧
    (t.err ≠ s.err ∨ t.maxl ≠ s.maxl ∨ t.period ≠ s.period ∨ t.idInc ≠ s.idInc ∨ t.idDec ≠ s.idDec ∨
      t.idOut ≠ s.idOut → ∃ cfg fail, i = .init cfg fail) ∧
    t.window = s.window ∧ t.refusal = s.refusal

/-- R120, R260, R74, R220, R222, R226, R228: the frames of the agents. A step in interrupt context changes at most DCLK, E, ISR_PHASE and
SM_PEND; an SM step at most L, S, SM_PEND, SM_PHASE and the records; a PWM step at most OUT, PCLK and the records; a port operation at
most L. A HOST step changes no record, neither WINDOW, the refusal mark nor the trace; one that is no INIT changes at most T, IRQ_EN, SM_PEND, CANCEL, PWM_RUN, LIFE and HELD, and
INIT leaves T. -/
def Obligations.AgentFrames : Prop :=
  ∀ i s t, exec i s = .next t →
    (contextOf (agentOf i) = .interrupt →
      t = { s with dclkA := t.dclkA, dclkB := t.dclkB, event := t.event, isrA := t.isrA, isrB := t.isrB,
                   smPend := t.smPend }) ∧
    (agentOf i = .sm →
      t = { s with level := t.level, sat := t.sat, smPend := t.smPend, smPhase := t.smPhase, output := t.output }) ∧
    (agentOf i = .pwm →
      t = { s with out := t.out, pclk := t.pclk, output := t.output }) ∧
    (agentOf i = .storePort → t = { s with level := t.level }) ∧
    (agentOf i = .host →
      t.output = s.output ∧ t.window = s.window ∧ t.refusal = s.refusal ∧ t.trace = s.trace ∧
      ((∀ cfg fail, i ≠ .init cfg fail) →
        t = { s with time := t.time, irqA := t.irqA, irqB := t.irqB, smPend := t.smPend, cancel := t.cancel,
                     pwmRun := t.pwmRun, life := t.life, heldInc := t.heldInc, heldDec := t.heldDec,
                     heldOut := t.heldOut }) ∧
      (∀ cfg fail, i = .init cfg fail → t.time = s.time))

/-- R283, R295: in a state that satisfies the invariant, TDEND ends the run: LIFE is Off and no step but TICK and INIT
is enabled. -/
def Obligations.TdendEndsRun : Prop :=
  ∀ s t, MachineInv s.core → exec .tdend s = .next t → runOver t.core = true

/-- R296 ("So a handler always finishes, a pending pass always runs while LIFE = Active, an in-flight pass always
completes, and the PWM Engine keeps iterating until TDBEGIN"): in an admitted run, from every point. -/
def Obligations.FairRunsFinishWork : Prop :=
  ∀ valid st act, FairRun valid st act → ∀ n,
    (∀ x, (st n).isr x = true → ∃ m, n < m ∧ (st m).isr x = false) ∧
    ((st n).smPhase = true → ∃ m, n < m ∧ (st m).smPhase = false) ∧
    ((st n).smPend = true → (∀ m, n ≤ m → (st m).life = .active) → ∃ m, n ≤ m ∧ act m = .smstart) ∧
    (pwmEnabled (st n) = true → (∀ m, n ≤ m → act m ≠ .tdbegin) → ∀ k, ∃ m, k ≤ m ∧ act m = .pwm)

/-- R59, R18, R19, R78: the core is a step relation over exactly the registers of R58, the output trace and the refusal
mark, with LINE_VALID a parameter of the relation, and the machine runs it. What an instruction does is `coreExec` on the
core's state, with the trace beside it neither read nor written; a step of the machine is `coreStep` at the next line's
instruction. Every run of the machine is a sequence of steps of the relation from the same state of the core, and every
such sequence is the run of a trace. So the trace beside the core's state says which step is next and carries nothing
else (log entries 1 and 9). -/
def Obligations.MachineRunsCoreRelation : Prop :=
  (∀ i s, exec i s = onCore (coreExec Config.lineValid i) s) ∧
  (∀ s ln rest i, s.refusal = none → s.trace = ln :: rest → decode ln = .ok i →
    coreOf (step s) = coreStep Config.lineValid i s.core) ∧
  (∀ n s u, runLines n s = (u, .ended) → ∃ is, coreSteps Config.lineValid is s.core = .next u.core) ∧
  (∀ is s d, s.refusal = none → coreSteps Config.lineValid is s.core = .next d →
    ∃ u, runTrace (is.map encode) s = (u, .ended) ∧ u.core = d)
end

