-- ==== Sys2Proof/Laws/State.lean ====
section
/-! SUPPORT. What the updates of the core's state and of the machine's do to each field: one lemma per field per update, true
by unfolding. -/

namespace Sys2Proof.Machine

section Core

variable (s : CoreState)

/-! The per-line accessors after the per-line updates. -/

@[simp] theorem dclk_setDclk_same (x : Line) (v : Time) : (s.setDclk x v).dclk x = v := by cases x <;> rfl
@[simp] theorem isr_setIsr_same (x : Line) (v : Bool) : (s.setIsr x v).isr x = v := by cases x <;> rfl
theorem dclk_setDclk_other (x y : Line) (v : Time) (h : y ≠ x) : (s.setDclk x v).dclk y = s.dclk y := by
  cases x <;> cases y <;> first | rfl | exact absurd rfl h
theorem isr_setIsr_other (x y : Line) (v : Bool) (h : y ≠ x) : (s.setIsr x v).isr y = s.isr y := by
  cases x <;> cases y <;> first | rfl | exact absurd rfl h
@[simp] theorem isr_setDclk (x y : Line) (v : Time) : (s.setDclk x v).isr y = s.isr y := by cases x <;> rfl
@[simp] theorem irq_setDclk (x y : Line) (v : Time) : (s.setDclk x v).irq y = s.irq y := by cases x <;> rfl
@[simp] theorem dclk_setIsr (x y : Line) (v : Bool) : (s.setIsr x v).dclk y = s.dclk y := by cases x <;> rfl
@[simp] theorem irq_setIsr (x y : Line) (v : Bool) : (s.setIsr x v).irq y = s.irq y := by cases x <;> rfl

/-! The written fields. -/

theorem dclkA_setDclk (x : Line) (v : Time) : (s.setDclk x v).dclkA = if x = .a then v else s.dclkA := by
  cases x <;> rfl
theorem dclkB_setDclk (x : Line) (v : Time) : (s.setDclk x v).dclkB = if x = .b then v else s.dclkB := by
  cases x <;> rfl
theorem isrA_setIsr (x : Line) (v : Bool) : (s.setIsr x v).isrA = if x = .a then v else s.isrA := by
  cases x <;> rfl
theorem isrB_setIsr (x : Line) (v : Bool) : (s.setIsr x v).isrB = if x = .b then v else s.isrB := by
  cases x <;> rfl
@[simp] theorem output_emit (r : OutRec) : (s.emit r).output = s.output ++ [r] := rfl

/-! The fields an update leaves. -/

@[simp] theorem level_setDclk (x : Line) (v : Time) : (s.setDclk x v).level = s.level := by cases x <;> rfl
@[simp] theorem sat_setDclk (x : Line) (v : Time) : (s.setDclk x v).sat = s.sat := by cases x <;> rfl
@[simp] theorem event_setDclk (x : Line) (v : Time) : (s.setDclk x v).event = s.event := by cases x <;> rfl
@[simp] theorem pclk_setDclk (x : Line) (v : Time) : (s.setDclk x v).pclk = s.pclk := by cases x <;> rfl
@[simp] theorem out_setDclk (x : Line) (v : Time) : (s.setDclk x v).out = s.out := by cases x <;> rfl
@[simp] theorem time_setDclk (x : Line) (v : Time) : (s.setDclk x v).time = s.time := by cases x <;> rfl
@[simp] theorem smPend_setDclk (x : Line) (v : Time) : (s.setDclk x v).smPend = s.smPend := by cases x <;> rfl
@[simp] theorem smPhase_setDclk (x : Line) (v : Time) : (s.setDclk x v).smPhase = s.smPhase := by cases x <;> rfl
@[simp] theorem isrA_setDclk (x : Line) (v : Time) : (s.setDclk x v).isrA = s.isrA := by cases x <;> rfl
@[simp] theorem isrB_setDclk (x : Line) (v : Time) : (s.setDclk x v).isrB = s.isrB := by cases x <;> rfl
@[simp] theorem irqA_setDclk (x : Line) (v : Time) : (s.setDclk x v).irqA = s.irqA := by cases x <;> rfl
@[simp] theorem irqB_setDclk (x : Line) (v : Time) : (s.setDclk x v).irqB = s.irqB := by cases x <;> rfl
@[simp] theorem pwmRun_setDclk (x : Line) (v : Time) : (s.setDclk x v).pwmRun = s.pwmRun := by cases x <;> rfl
@[simp] theorem cancel_setDclk (x : Line) (v : Time) : (s.setDclk x v).cancel = s.cancel := by cases x <;> rfl
@[simp] theorem life_setDclk (x : Line) (v : Time) : (s.setDclk x v).life = s.life := by cases x <;> rfl
@[simp] theorem err_setDclk (x : Line) (v : Time) : (s.setDclk x v).err = s.err := by cases x <;> rfl
@[simp] theorem heldInc_setDclk (x : Line) (v : Time) : (s.setDclk x v).heldInc = s.heldInc := by cases x <;> rfl
@[simp] theorem heldDec_setDclk (x : Line) (v : Time) : (s.setDclk x v).heldDec = s.heldDec := by cases x <;> rfl
@[simp] theorem heldOut_setDclk (x : Line) (v : Time) : (s.setDclk x v).heldOut = s.heldOut := by cases x <;> rfl
@[simp] theorem maxl_setDclk (x : Line) (v : Time) : (s.setDclk x v).maxl = s.maxl := by cases x <;> rfl
@[simp] theorem period_setDclk (x : Line) (v : Time) : (s.setDclk x v).period = s.period := by cases x <;> rfl
@[simp] theorem idInc_setDclk (x : Line) (v : Time) : (s.setDclk x v).idInc = s.idInc := by cases x <;> rfl
@[simp] theorem idDec_setDclk (x : Line) (v : Time) : (s.setDclk x v).idDec = s.idDec := by cases x <;> rfl
@[simp] theorem idOut_setDclk (x : Line) (v : Time) : (s.setDclk x v).idOut = s.idOut := by cases x <;> rfl
@[simp] theorem window_setDclk (x : Line) (v : Time) : (s.setDclk x v).window = s.window := by cases x <;> rfl
@[simp] theorem output_setDclk (x : Line) (v : Time) : (s.setDclk x v).output = s.output := by cases x <;> rfl
@[simp] theorem startupErrors_setDclk (x : Line) (v : Time) : (s.setDclk x v).startupErrors = s.startupErrors := by cases x <;> rfl
@[simp] theorem refusal_setDclk (x : Line) (v : Time) : (s.setDclk x v).refusal = s.refusal := by cases x <;> rfl

@[simp] theorem level_setIsr (x : Line) (v : Bool) : (s.setIsr x v).level = s.level := by cases x <;> rfl
@[simp] theorem sat_setIsr (x : Line) (v : Bool) : (s.setIsr x v).sat = s.sat := by cases x <;> rfl
@[simp] theorem event_setIsr (x : Line) (v : Bool) : (s.setIsr x v).event = s.event := by cases x <;> rfl
@[simp] theorem dclkA_setIsr (x : Line) (v : Bool) : (s.setIsr x v).dclkA = s.dclkA := by cases x <;> rfl
@[simp] theorem dclkB_setIsr (x : Line) (v : Bool) : (s.setIsr x v).dclkB = s.dclkB := by cases x <;> rfl
@[simp] theorem pclk_setIsr (x : Line) (v : Bool) : (s.setIsr x v).pclk = s.pclk := by cases x <;> rfl
@[simp] theorem out_setIsr (x : Line) (v : Bool) : (s.setIsr x v).out = s.out := by cases x <;> rfl
@[simp] theorem time_setIsr (x : Line) (v : Bool) : (s.setIsr x v).time = s.time := by cases x <;> rfl
@[simp] theorem smPend_setIsr (x : Line) (v : Bool) : (s.setIsr x v).smPend = s.smPend := by cases x <;> rfl
@[simp] theorem smPhase_setIsr (x : Line) (v : Bool) : (s.setIsr x v).smPhase = s.smPhase := by cases x <;> rfl
@[simp] theorem irqA_setIsr (x : Line) (v : Bool) : (s.setIsr x v).irqA = s.irqA := by cases x <;> rfl
@[simp] theorem irqB_setIsr (x : Line) (v : Bool) : (s.setIsr x v).irqB = s.irqB := by cases x <;> rfl
@[simp] theorem pwmRun_setIsr (x : Line) (v : Bool) : (s.setIsr x v).pwmRun = s.pwmRun := by cases x <;> rfl
@[simp] theorem cancel_setIsr (x : Line) (v : Bool) : (s.setIsr x v).cancel = s.cancel := by cases x <;> rfl
@[simp] theorem life_setIsr (x : Line) (v : Bool) : (s.setIsr x v).life = s.life := by cases x <;> rfl
@[simp] theorem err_setIsr (x : Line) (v : Bool) : (s.setIsr x v).err = s.err := by cases x <;> rfl
@[simp] theorem heldInc_setIsr (x : Line) (v : Bool) : (s.setIsr x v).heldInc = s.heldInc := by cases x <;> rfl
@[simp] theorem heldDec_setIsr (x : Line) (v : Bool) : (s.setIsr x v).heldDec = s.heldDec := by cases x <;> rfl
@[simp] theorem heldOut_setIsr (x : Line) (v : Bool) : (s.setIsr x v).heldOut = s.heldOut := by cases x <;> rfl
@[simp] theorem maxl_setIsr (x : Line) (v : Bool) : (s.setIsr x v).maxl = s.maxl := by cases x <;> rfl
@[simp] theorem period_setIsr (x : Line) (v : Bool) : (s.setIsr x v).period = s.period := by cases x <;> rfl
@[simp] theorem idInc_setIsr (x : Line) (v : Bool) : (s.setIsr x v).idInc = s.idInc := by cases x <;> rfl
@[simp] theorem idDec_setIsr (x : Line) (v : Bool) : (s.setIsr x v).idDec = s.idDec := by cases x <;> rfl
@[simp] theorem idOut_setIsr (x : Line) (v : Bool) : (s.setIsr x v).idOut = s.idOut := by cases x <;> rfl
@[simp] theorem window_setIsr (x : Line) (v : Bool) : (s.setIsr x v).window = s.window := by cases x <;> rfl
@[simp] theorem output_setIsr (x : Line) (v : Bool) : (s.setIsr x v).output = s.output := by cases x <;> rfl
@[simp] theorem startupErrors_setIsr (x : Line) (v : Bool) : (s.setIsr x v).startupErrors = s.startupErrors := by cases x <;> rfl
@[simp] theorem refusal_setIsr (x : Line) (v : Bool) : (s.setIsr x v).refusal = s.refusal := by cases x <;> rfl

@[simp] theorem level_emit (r : OutRec) : (s.emit r).level = s.level := rfl
@[simp] theorem sat_emit (r : OutRec) : (s.emit r).sat = s.sat := rfl
@[simp] theorem event_emit (r : OutRec) : (s.emit r).event = s.event := rfl
@[simp] theorem dclkA_emit (r : OutRec) : (s.emit r).dclkA = s.dclkA := rfl
@[simp] theorem dclkB_emit (r : OutRec) : (s.emit r).dclkB = s.dclkB := rfl
@[simp] theorem pclk_emit (r : OutRec) : (s.emit r).pclk = s.pclk := rfl
@[simp] theorem out_emit (r : OutRec) : (s.emit r).out = s.out := rfl
@[simp] theorem time_emit (r : OutRec) : (s.emit r).time = s.time := rfl
@[simp] theorem smPend_emit (r : OutRec) : (s.emit r).smPend = s.smPend := rfl
@[simp] theorem smPhase_emit (r : OutRec) : (s.emit r).smPhase = s.smPhase := rfl
@[simp] theorem isrA_emit (r : OutRec) : (s.emit r).isrA = s.isrA := rfl
@[simp] theorem isrB_emit (r : OutRec) : (s.emit r).isrB = s.isrB := rfl
@[simp] theorem irqA_emit (r : OutRec) : (s.emit r).irqA = s.irqA := rfl
@[simp] theorem irqB_emit (r : OutRec) : (s.emit r).irqB = s.irqB := rfl
@[simp] theorem pwmRun_emit (r : OutRec) : (s.emit r).pwmRun = s.pwmRun := rfl
@[simp] theorem cancel_emit (r : OutRec) : (s.emit r).cancel = s.cancel := rfl
@[simp] theorem life_emit (r : OutRec) : (s.emit r).life = s.life := rfl
@[simp] theorem err_emit (r : OutRec) : (s.emit r).err = s.err := rfl
@[simp] theorem heldInc_emit (r : OutRec) : (s.emit r).heldInc = s.heldInc := rfl
@[simp] theorem heldDec_emit (r : OutRec) : (s.emit r).heldDec = s.heldDec := rfl
@[simp] theorem heldOut_emit (r : OutRec) : (s.emit r).heldOut = s.heldOut := rfl
@[simp] theorem maxl_emit (r : OutRec) : (s.emit r).maxl = s.maxl := rfl
@[simp] theorem period_emit (r : OutRec) : (s.emit r).period = s.period := rfl
@[simp] theorem idInc_emit (r : OutRec) : (s.emit r).idInc = s.idInc := rfl
@[simp] theorem idDec_emit (r : OutRec) : (s.emit r).idDec = s.idDec := rfl
@[simp] theorem idOut_emit (r : OutRec) : (s.emit r).idOut = s.idOut := rfl
@[simp] theorem window_emit (r : OutRec) : (s.emit r).window = s.window := rfl
@[simp] theorem startupErrors_emit (r : OutRec) : (s.emit r).startupErrors = s.startupErrors := rfl
@[simp] theorem refusal_emit (r : OutRec) : (s.emit r).refusal = s.refusal := rfl

end Core

/-! The machine's state around the core's. -/

section Machine

variable (s : State)

@[simp] theorem core_withCore (c : CoreState) : (s.withCore c).core = c := rfl
@[simp] theorem trace_withCore (c : CoreState) : (s.withCore c).trace = s.trace := rfl
@[simp] theorem withCore_core : s.withCore s.core = s := rfl
@[simp] theorem withCore_withCore (c d : CoreState) : (s.withCore c).withCore d = s.withCore d := rfl
@[simp] theorem refusal_markRefused (r : Refusal) : (s.markRefused r).refusal = some r := rfl
@[simp] theorem trace_markRefused (r : Refusal) : (s.markRefused r).trace = s.trace := rfl
@[simp] theorem trace_advance (i : Instr) (rest : List TraceLine) :
    (s.advance i rest).trace = dropListed (performs i s.core) rest := rfl
@[simp] theorem core_advance (i : Instr) (rest : List TraceLine) : (s.advance i rest).core = s.core := rfl
@[simp] theorem trace_pushLine (ln : TraceLine) : (s.pushLine ln).trace = ln :: s.trace := rfl
@[simp] theorem core_pushLine (ln : TraceLine) : (s.pushLine ln).core = s.core := rfl

@[simp] theorem level_core : s.core.level = s.level := rfl
@[simp] theorem sat_core : s.core.sat = s.sat := rfl
@[simp] theorem event_core : s.core.event = s.event := rfl
@[simp] theorem dclkA_core : s.core.dclkA = s.dclkA := rfl
@[simp] theorem dclkB_core : s.core.dclkB = s.dclkB := rfl
@[simp] theorem pclk_core : s.core.pclk = s.pclk := rfl
@[simp] theorem out_core : s.core.out = s.out := rfl
@[simp] theorem time_core : s.core.time = s.time := rfl
@[simp] theorem smPend_core : s.core.smPend = s.smPend := rfl
@[simp] theorem smPhase_core : s.core.smPhase = s.smPhase := rfl
@[simp] theorem isrA_core : s.core.isrA = s.isrA := rfl
@[simp] theorem isrB_core : s.core.isrB = s.isrB := rfl
@[simp] theorem irqA_core : s.core.irqA = s.irqA := rfl
@[simp] theorem irqB_core : s.core.irqB = s.irqB := rfl
@[simp] theorem pwmRun_core : s.core.pwmRun = s.pwmRun := rfl
@[simp] theorem cancel_core : s.core.cancel = s.cancel := rfl
@[simp] theorem life_core : s.core.life = s.life := rfl
@[simp] theorem err_core : s.core.err = s.err := rfl
@[simp] theorem heldInc_core : s.core.heldInc = s.heldInc := rfl
@[simp] theorem heldDec_core : s.core.heldDec = s.heldDec := rfl
@[simp] theorem heldOut_core : s.core.heldOut = s.heldOut := rfl
@[simp] theorem maxl_core : s.core.maxl = s.maxl := rfl
@[simp] theorem period_core : s.core.period = s.period := rfl
@[simp] theorem idInc_core : s.core.idInc = s.idInc := rfl
@[simp] theorem idDec_core : s.core.idDec = s.idDec := rfl
@[simp] theorem idOut_core : s.core.idOut = s.idOut := rfl
@[simp] theorem window_core : s.core.window = s.window := rfl
@[simp] theorem output_core : s.core.output = s.output := rfl
@[simp] theorem startupErrors_core : s.core.startupErrors = s.startupErrors := rfl
@[simp] theorem refusal_core : s.core.refusal = s.refusal := rfl

@[simp] theorem level_withCore (c : CoreState) : (s.withCore c).level = c.level := rfl
@[simp] theorem sat_withCore (c : CoreState) : (s.withCore c).sat = c.sat := rfl
@[simp] theorem event_withCore (c : CoreState) : (s.withCore c).event = c.event := rfl
@[simp] theorem dclkA_withCore (c : CoreState) : (s.withCore c).dclkA = c.dclkA := rfl
@[simp] theorem dclkB_withCore (c : CoreState) : (s.withCore c).dclkB = c.dclkB := rfl
@[simp] theorem pclk_withCore (c : CoreState) : (s.withCore c).pclk = c.pclk := rfl
@[simp] theorem out_withCore (c : CoreState) : (s.withCore c).out = c.out := rfl
@[simp] theorem time_withCore (c : CoreState) : (s.withCore c).time = c.time := rfl
@[simp] theorem smPend_withCore (c : CoreState) : (s.withCore c).smPend = c.smPend := rfl
@[simp] theorem smPhase_withCore (c : CoreState) : (s.withCore c).smPhase = c.smPhase := rfl
@[simp] theorem isrA_withCore (c : CoreState) : (s.withCore c).isrA = c.isrA := rfl
@[simp] theorem isrB_withCore (c : CoreState) : (s.withCore c).isrB = c.isrB := rfl
@[simp] theorem irqA_withCore (c : CoreState) : (s.withCore c).irqA = c.irqA := rfl
@[simp] theorem irqB_withCore (c : CoreState) : (s.withCore c).irqB = c.irqB := rfl
@[simp] theorem pwmRun_withCore (c : CoreState) : (s.withCore c).pwmRun = c.pwmRun := rfl
@[simp] theorem cancel_withCore (c : CoreState) : (s.withCore c).cancel = c.cancel := rfl
@[simp] theorem life_withCore (c : CoreState) : (s.withCore c).life = c.life := rfl
@[simp] theorem err_withCore (c : CoreState) : (s.withCore c).err = c.err := rfl
@[simp] theorem heldInc_withCore (c : CoreState) : (s.withCore c).heldInc = c.heldInc := rfl
@[simp] theorem heldDec_withCore (c : CoreState) : (s.withCore c).heldDec = c.heldDec := rfl
@[simp] theorem heldOut_withCore (c : CoreState) : (s.withCore c).heldOut = c.heldOut := rfl
@[simp] theorem maxl_withCore (c : CoreState) : (s.withCore c).maxl = c.maxl := rfl
@[simp] theorem period_withCore (c : CoreState) : (s.withCore c).period = c.period := rfl
@[simp] theorem idInc_withCore (c : CoreState) : (s.withCore c).idInc = c.idInc := rfl
@[simp] theorem idDec_withCore (c : CoreState) : (s.withCore c).idDec = c.idDec := rfl
@[simp] theorem idOut_withCore (c : CoreState) : (s.withCore c).idOut = c.idOut := rfl
@[simp] theorem window_withCore (c : CoreState) : (s.withCore c).window = c.window := rfl
@[simp] theorem output_withCore (c : CoreState) : (s.withCore c).output = c.output := rfl
@[simp] theorem startupErrors_withCore (c : CoreState) : (s.withCore c).startupErrors = c.startupErrors := rfl
@[simp] theorem refusal_withCore (c : CoreState) : (s.withCore c).refusal = c.refusal := rfl

@[simp] theorem level_markRefused (r : Refusal) : (s.markRefused r).level = s.level := rfl
@[simp] theorem sat_markRefused (r : Refusal) : (s.markRefused r).sat = s.sat := rfl
@[simp] theorem event_markRefused (r : Refusal) : (s.markRefused r).event = s.event := rfl
@[simp] theorem dclkA_markRefused (r : Refusal) : (s.markRefused r).dclkA = s.dclkA := rfl
@[simp] theorem dclkB_markRefused (r : Refusal) : (s.markRefused r).dclkB = s.dclkB := rfl
@[simp] theorem pclk_markRefused (r : Refusal) : (s.markRefused r).pclk = s.pclk := rfl
@[simp] theorem out_markRefused (r : Refusal) : (s.markRefused r).out = s.out := rfl
@[simp] theorem time_markRefused (r : Refusal) : (s.markRefused r).time = s.time := rfl
@[simp] theorem smPend_markRefused (r : Refusal) : (s.markRefused r).smPend = s.smPend := rfl
@[simp] theorem smPhase_markRefused (r : Refusal) : (s.markRefused r).smPhase = s.smPhase := rfl
@[simp] theorem isrA_markRefused (r : Refusal) : (s.markRefused r).isrA = s.isrA := rfl
@[simp] theorem isrB_markRefused (r : Refusal) : (s.markRefused r).isrB = s.isrB := rfl
@[simp] theorem irqA_markRefused (r : Refusal) : (s.markRefused r).irqA = s.irqA := rfl
@[simp] theorem irqB_markRefused (r : Refusal) : (s.markRefused r).irqB = s.irqB := rfl
@[simp] theorem pwmRun_markRefused (r : Refusal) : (s.markRefused r).pwmRun = s.pwmRun := rfl
@[simp] theorem cancel_markRefused (r : Refusal) : (s.markRefused r).cancel = s.cancel := rfl
@[simp] theorem life_markRefused (r : Refusal) : (s.markRefused r).life = s.life := rfl
@[simp] theorem err_markRefused (r : Refusal) : (s.markRefused r).err = s.err := rfl
@[simp] theorem heldInc_markRefused (r : Refusal) : (s.markRefused r).heldInc = s.heldInc := rfl
@[simp] theorem heldDec_markRefused (r : Refusal) : (s.markRefused r).heldDec = s.heldDec := rfl
@[simp] theorem heldOut_markRefused (r : Refusal) : (s.markRefused r).heldOut = s.heldOut := rfl
@[simp] theorem maxl_markRefused (r : Refusal) : (s.markRefused r).maxl = s.maxl := rfl
@[simp] theorem period_markRefused (r : Refusal) : (s.markRefused r).period = s.period := rfl
@[simp] theorem idInc_markRefused (r : Refusal) : (s.markRefused r).idInc = s.idInc := rfl
@[simp] theorem idDec_markRefused (r : Refusal) : (s.markRefused r).idDec = s.idDec := rfl
@[simp] theorem idOut_markRefused (r : Refusal) : (s.markRefused r).idOut = s.idOut := rfl
@[simp] theorem window_markRefused (r : Refusal) : (s.markRefused r).window = s.window := rfl
@[simp] theorem output_markRefused (r : Refusal) : (s.markRefused r).output = s.output := rfl
@[simp] theorem startupErrors_markRefused (r : Refusal) : (s.markRefused r).startupErrors = s.startupErrors := rfl

@[simp] theorem level_advance (i : Instr) (rest : List TraceLine) : (s.advance i rest).level = s.level := rfl
@[simp] theorem sat_advance (i : Instr) (rest : List TraceLine) : (s.advance i rest).sat = s.sat := rfl
@[simp] theorem event_advance (i : Instr) (rest : List TraceLine) : (s.advance i rest).event = s.event := rfl
@[simp] theorem dclkA_advance (i : Instr) (rest : List TraceLine) : (s.advance i rest).dclkA = s.dclkA := rfl
@[simp] theorem dclkB_advance (i : Instr) (rest : List TraceLine) : (s.advance i rest).dclkB = s.dclkB := rfl
@[simp] theorem pclk_advance (i : Instr) (rest : List TraceLine) : (s.advance i rest).pclk = s.pclk := rfl
@[simp] theorem out_advance (i : Instr) (rest : List TraceLine) : (s.advance i rest).out = s.out := rfl
@[simp] theorem time_advance (i : Instr) (rest : List TraceLine) : (s.advance i rest).time = s.time := rfl
@[simp] theorem smPend_advance (i : Instr) (rest : List TraceLine) : (s.advance i rest).smPend = s.smPend := rfl
@[simp] theorem smPhase_advance (i : Instr) (rest : List TraceLine) : (s.advance i rest).smPhase = s.smPhase := rfl
@[simp] theorem isrA_advance (i : Instr) (rest : List TraceLine) : (s.advance i rest).isrA = s.isrA := rfl
@[simp] theorem isrB_advance (i : Instr) (rest : List TraceLine) : (s.advance i rest).isrB = s.isrB := rfl
@[simp] theorem irqA_advance (i : Instr) (rest : List TraceLine) : (s.advance i rest).irqA = s.irqA := rfl
@[simp] theorem irqB_advance (i : Instr) (rest : List TraceLine) : (s.advance i rest).irqB = s.irqB := rfl
@[simp] theorem pwmRun_advance (i : Instr) (rest : List TraceLine) : (s.advance i rest).pwmRun = s.pwmRun := rfl
@[simp] theorem cancel_advance (i : Instr) (rest : List TraceLine) : (s.advance i rest).cancel = s.cancel := rfl
@[simp] theorem life_advance (i : Instr) (rest : List TraceLine) : (s.advance i rest).life = s.life := rfl
@[simp] theorem err_advance (i : Instr) (rest : List TraceLine) : (s.advance i rest).err = s.err := rfl
@[simp] theorem heldInc_advance (i : Instr) (rest : List TraceLine) : (s.advance i rest).heldInc = s.heldInc := rfl
@[simp] theorem heldDec_advance (i : Instr) (rest : List TraceLine) : (s.advance i rest).heldDec = s.heldDec := rfl
@[simp] theorem heldOut_advance (i : Instr) (rest : List TraceLine) : (s.advance i rest).heldOut = s.heldOut := rfl
@[simp] theorem maxl_advance (i : Instr) (rest : List TraceLine) : (s.advance i rest).maxl = s.maxl := rfl
@[simp] theorem period_advance (i : Instr) (rest : List TraceLine) : (s.advance i rest).period = s.period := rfl
@[simp] theorem idInc_advance (i : Instr) (rest : List TraceLine) : (s.advance i rest).idInc = s.idInc := rfl
@[simp] theorem idDec_advance (i : Instr) (rest : List TraceLine) : (s.advance i rest).idDec = s.idDec := rfl
@[simp] theorem idOut_advance (i : Instr) (rest : List TraceLine) : (s.advance i rest).idOut = s.idOut := rfl
@[simp] theorem window_advance (i : Instr) (rest : List TraceLine) : (s.advance i rest).window = s.window := rfl
@[simp] theorem output_advance (i : Instr) (rest : List TraceLine) : (s.advance i rest).output = s.output := rfl
@[simp] theorem startupErrors_advance (i : Instr) (rest : List TraceLine) : (s.advance i rest).startupErrors = s.startupErrors := rfl
@[simp] theorem refusal_advance (i : Instr) (rest : List TraceLine) : (s.advance i rest).refusal = s.refusal := rfl

@[simp] theorem level_pushLine (ln : TraceLine) : (s.pushLine ln).level = s.level := rfl
@[simp] theorem sat_pushLine (ln : TraceLine) : (s.pushLine ln).sat = s.sat := rfl
@[simp] theorem event_pushLine (ln : TraceLine) : (s.pushLine ln).event = s.event := rfl
@[simp] theorem dclkA_pushLine (ln : TraceLine) : (s.pushLine ln).dclkA = s.dclkA := rfl
@[simp] theorem dclkB_pushLine (ln : TraceLine) : (s.pushLine ln).dclkB = s.dclkB := rfl
@[simp] theorem pclk_pushLine (ln : TraceLine) : (s.pushLine ln).pclk = s.pclk := rfl
@[simp] theorem out_pushLine (ln : TraceLine) : (s.pushLine ln).out = s.out := rfl
@[simp] theorem time_pushLine (ln : TraceLine) : (s.pushLine ln).time = s.time := rfl
@[simp] theorem smPend_pushLine (ln : TraceLine) : (s.pushLine ln).smPend = s.smPend := rfl
@[simp] theorem smPhase_pushLine (ln : TraceLine) : (s.pushLine ln).smPhase = s.smPhase := rfl
@[simp] theorem isrA_pushLine (ln : TraceLine) : (s.pushLine ln).isrA = s.isrA := rfl
@[simp] theorem isrB_pushLine (ln : TraceLine) : (s.pushLine ln).isrB = s.isrB := rfl
@[simp] theorem irqA_pushLine (ln : TraceLine) : (s.pushLine ln).irqA = s.irqA := rfl
@[simp] theorem irqB_pushLine (ln : TraceLine) : (s.pushLine ln).irqB = s.irqB := rfl
@[simp] theorem pwmRun_pushLine (ln : TraceLine) : (s.pushLine ln).pwmRun = s.pwmRun := rfl
@[simp] theorem cancel_pushLine (ln : TraceLine) : (s.pushLine ln).cancel = s.cancel := rfl
@[simp] theorem life_pushLine (ln : TraceLine) : (s.pushLine ln).life = s.life := rfl
@[simp] theorem err_pushLine (ln : TraceLine) : (s.pushLine ln).err = s.err := rfl
@[simp] theorem heldInc_pushLine (ln : TraceLine) : (s.pushLine ln).heldInc = s.heldInc := rfl
@[simp] theorem heldDec_pushLine (ln : TraceLine) : (s.pushLine ln).heldDec = s.heldDec := rfl
@[simp] theorem heldOut_pushLine (ln : TraceLine) : (s.pushLine ln).heldOut = s.heldOut := rfl
@[simp] theorem maxl_pushLine (ln : TraceLine) : (s.pushLine ln).maxl = s.maxl := rfl
@[simp] theorem period_pushLine (ln : TraceLine) : (s.pushLine ln).period = s.period := rfl
@[simp] theorem idInc_pushLine (ln : TraceLine) : (s.pushLine ln).idInc = s.idInc := rfl
@[simp] theorem idDec_pushLine (ln : TraceLine) : (s.pushLine ln).idDec = s.idDec := rfl
@[simp] theorem idOut_pushLine (ln : TraceLine) : (s.pushLine ln).idOut = s.idOut := rfl
@[simp] theorem window_pushLine (ln : TraceLine) : (s.pushLine ln).window = s.window := rfl
@[simp] theorem output_pushLine (ln : TraceLine) : (s.pushLine ln).output = s.output := rfl
@[simp] theorem startupErrors_pushLine (ln : TraceLine) : (s.pushLine ln).startupErrors = s.startupErrors := rfl
@[simp] theorem refusal_pushLine (ln : TraceLine) : (s.pushLine ln).refusal = s.refusal := rfl

end Machine

end Sys2Proof.Machine
end

