-- ==== Sys2Proof/Laws/Ops.lean ====
section
/-! SUPPORT. What each shared operation and each step can do, said once: if it answers a next state, then one of the
listed cases holds. Proofs cite these and do not unfold the operations. -/

namespace Sys2Proof.Machine

/-! ### Combinators -/

theorem guardStep_of_enabled {e : Bool} {b : CoreResult} (h : e = true) : guardStep e b = b := by
  simp [guardStep, h]

theorem guardStep_of_disabled {e : Bool} {b : CoreResult} (h : e = false) : guardStep e b = .fault .notEnabled := by
  simp [guardStep, h]

theorem guardStep_next {e : Bool} {b : CoreResult} {t : CoreState} (h : guardStep e b = .next t) :
    e = true ∧ b = .next t := by
  cases e
  · simp [guardStep] at h
  · exact ⟨rfl, h⟩

theorem guardStep_refused {e : Bool} {b : CoreResult} {r : Refusal} (h : guardStep e b = .refused r) :
    e = true ∧ b = .refused r := by
  cases e
  · simp [guardStep] at h
  · exact ⟨rfl, h⟩

theorem guardStep_fault {e : Bool} {b : CoreResult} {x : Fault} (h : guardStep e b = .fault x) :
    (e = false ∧ x = .notEnabled) ∨ (e = true ∧ b = .fault x) := by
  cases e
  · exact .inl ⟨rfl, by simpa [guardStep] using h.symm⟩
  · exact .inr ⟨rfl, h⟩

theorem andThen_next {r : CoreResult} {f : CoreState → CoreResult} {t : CoreState} (h : andThen r f = .next t) :
    ∃ u, r = .next u ∧ f u = .next t := by
  cases r with
  | next u => exact ⟨u, rfl, h⟩
  | fault x => cases h
  | refused x => cases h

@[simp] theorem andThen_of_next (u : CoreState) (f : CoreState → CoreResult) : andThen (.next u) f = f u := rfl

/-! ### Debounce Filter (R122 to R127) -/

theorem edge_next {x : Line} {s t : CoreState} (h : edge x s = .next t) :
    edgeEnabled x s = true ∧
      ((edgeAccepted x s = true ∧ t = acceptEdge x s) ∨ (edgeAccepted x s = false ∧ t = s)) := by
  obtain ⟨he, hb⟩ := guardStep_next h
  refine ⟨he, ?_⟩
  cases ha : edgeAccepted x s
  · exact .inr ⟨rfl, by simpa [ha] using hb.symm⟩
  · exact .inl ⟨rfl, by simpa [ha] using hb.symm⟩

theorem edge_of_enabled {x : Line} {s : CoreState} (h : edgeEnabled x s = true) :
    edge x s = .next (if edgeAccepted x s then acceptEdge x s else s) := guardStep_of_enabled h

theorem edgeAccepted_iff {x : Line} {s : CoreState} :
    edgeAccepted x s = true ↔ s.window ≤ s.time - s.dclk x := by simp [edgeAccepted, CoreState.since, BitVec.ule_iff_le]

/-- Whether line y accepts is a matter of T, DCLK[y] and WINDOW alone (R121, R128). -/
theorem edgeAccepted_congr {y : Line} {s t : CoreState} (ht : t.time = s.time) (hd : t.dclk y = s.dclk y)
    (hw : t.window = s.window) : edgeAccepted y t = edgeAccepted y s := by
  simp [edgeAccepted, CoreState.since, ht, hd, hw]

theorem exec_edgeInstr (x : Line) (s : State) : exec (edgeInstr x) s = onCore (edge x) s := by cases x <;> rfl

theorem exec_signalInstr (x : Line) (s : State) : exec (signalInstr x) s = onCore (signal x) s := by cases x <;> rfl

theorem signal_of_isr {x : Line} {s : CoreState} (h : s.isr x = true) :
    signal x s = .next { s.setIsr x false with smPend := true } := guardStep_of_enabled h

theorem signal_next {x : Line} {s t : CoreState} (h : signal x s = .next t) :
    s.isr x = true ∧ t = { s.setIsr x false with smPend := true } := by
  obtain ⟨he, hb⟩ := guardStep_next h
  exact ⟨he, by simpa using hb.symm⟩

/-! ### Store (R170 to R174) -/

theorem storeInc_of_lt {s : CoreState} (h : s.level < s.maxl) :
    storeInc s = .next { s with level := s.level + 1#32 } := if_pos h

theorem storeDec_of_ne {s : CoreState} (h : s.level ≠ 0#32) :
    storeDec s = .next { s with level := s.level - 1#32 } := if_neg h

theorem storeInc_next {s t : CoreState} (h : storeInc s = .next t) :
    s.level < s.maxl ∧ t = { s with level := s.level + 1#32 } := by
  unfold storeInc at h
  split at h
  · exact ⟨‹_›, by simpa using h.symm⟩
  · cases h

theorem storeDec_next {s t : CoreState} (h : storeDec s = .next t) :
    s.level ≠ 0#32 ∧ t = { s with level := s.level - 1#32 } := by
  unfold storeDec at h
  split at h
  · cases h
  · exact ⟨‹_›, by simpa using h.symm⟩

theorem applyAction_next {a : Action} {s t : CoreState} (h : applyAction a s = .next t) :
    (a = .noop ∧ t = s) ∨
    (a = .increment ∧ s.level < s.maxl ∧ t = { s with level := s.level + 1#32 }) ∨
    (a = .decrement ∧ s.level ≠ 0#32 ∧ t = { s with level := s.level - 1#32 }) := by
  cases a with
  | noop => exact .inl ⟨rfl, by simpa [applyAction] using h.symm⟩
  | increment => exact .inr (.inl ⟨rfl, storeInc_next h⟩)
  | decrement => exact .inr (.inr ⟨rfl, storeDec_next h⟩)

/-! ### State Machine (R145 to R147) -/

theorem finishPass_next {s t : CoreState} (h : finishPass s = .next t) :
    s.level ≤ s.maxl ∧
      t = { s.emit (.obs s.level (pctOf s.maxl s.level)) with sat := satOf s.maxl s.level, smPhase := false } := by
  unfold finishPass recordPass storeRead at h
  split at h
  · exact ⟨‹_›, by simpa using h.symm⟩
  · cases h

theorem finishPass_of_le {s : CoreState} (h : s.level ≤ s.maxl) :
    finishPass s = .next { s.emit (.obs s.level (pctOf s.maxl s.level)) with
      sat := satOf s.maxl s.level, smPhase := false } := if_pos h

/-- Where S agrees with the level, the action of a pass is read off E and the level (R35, R140, R141). -/
theorem passAction_of_satOf {s : CoreState} (hs : s.sat = satOf s.maxl s.level) (hl : s.level ≤ s.maxl) :
    passAction s =
      if s.event = .increase ∧ s.level ≠ s.maxl then .increment
      else if s.event = .decrease ∧ s.level ≠ 0#32 then .decrement else .noop := by
  by_cases hm : s.maxl = 0#32
  · have h0 : s.level = 0#32 := by bv_omega
    simp [passAction, hm, h0]
  · by_cases h0 : s.level = 0#32
    · have hne : ¬ (0#32 = s.maxl) := fun h => hm h.symm
      cases he : s.event <;> simp [passAction, hm, hs, satOf, h0, he, hne, tableAction]
    · by_cases h1 : s.level = s.maxl
      · cases he : s.event <;> simp [passAction, hm, hs, satOf, h1, he, tableAction]
      · cases he : s.event <;> simp [passAction, hm, hs, satOf, h0, h1, he, tableAction]

theorem smstart_next {s t : CoreState} (h : smstart s = .next t) :
    smstartEnabled s = true ∧ t = { s with smPend := false, smPhase := true } := by
  obtain ⟨he, hb⟩ := guardStep_next h
  exact ⟨he, by simpa using hb.symm⟩

/-- A pass ends with the level one up, one down or the same, as its action says; S, the OBS record and SM_PHASE follow
from the new level. -/
theorem smexec_next {s t : CoreState} (h : smexec s = .next t) :
    s.smPhase = true ∧ ∃ l : Level,
      ((passAction s = .noop ∧ l = s.level) ∨
       (passAction s = .increment ∧ s.level < s.maxl ∧ l = s.level + 1#32) ∨
       (passAction s = .decrement ∧ s.level ≠ 0#32 ∧ l = s.level - 1#32)) ∧
      l ≤ s.maxl ∧
      t = { s.emit (.obs l (pctOf s.maxl l)) with
        level := l, sat := satOf s.maxl l, smPhase := false } := by
  obtain ⟨he, hb⟩ := guardStep_next h
  obtain ⟨u, hu, hf⟩ := andThen_next hb
  obtain ⟨hl, rfl⟩ := finishPass_next hf
  refine ⟨he, ?_⟩
  obtain ⟨ha, rfl⟩ | ⟨ha, hlt, rfl⟩ | ⟨ha, hne, rfl⟩ := applyAction_next hu
  · exact ⟨_, .inl ⟨ha, rfl⟩, hl, rfl⟩
  · exact ⟨_, .inr (.inl ⟨ha, hlt, rfl⟩), hl, rfl⟩
  · exact ⟨_, .inr (.inr ⟨ha, hne, rfl⟩), hl, rfl⟩

/-! ### PWM Engine (R192 to R195) -/

theorem pwmIteration_next {l : Level} {s t : CoreState} (h : pwmIteration l s = .next t) :
    (l = 0#32 ∧ t = driveOut false s) ∨
    (l ≠ 0#32 ∧ l = s.maxl ∧ t = driveOut true s) ∨
    (l ≠ 0#32 ∧ l < s.maxl ∧ flipDue s l = true ∧ t = flipOut s) ∨
    (l ≠ 0#32 ∧ l < s.maxl ∧ flipDue s l = false ∧ t = s) := by
  unfold pwmIteration at h
  split at h
  · exact .inl ⟨‹_›, by simpa using h.symm⟩
  split at h
  · exact .inr (.inl ⟨‹_›, ‹_›, by simpa using h.symm⟩)
  split at h
  · cases hf : flipDue s l
    · exact .inr (.inr (.inr ⟨‹_›, ‹_›, rfl, by simpa [hf] using h.symm⟩))
    · exact .inr (.inr (.inl ⟨‹_›, ‹_›, rfl, by simpa [hf] using h.symm⟩))
  · cases h

/-- An iteration reads the level, then drives the output or leaves it (R192). -/
theorem pwm_next {s t : CoreState} (h : pwmStep s = .next t) :
    pwmEnabled s = true ∧ pwmIteration s.level s = .next t :=
  guardStep_next h

/-! ### Lifecycle (R220 to R228) -/

theorem raiseStartupError_next {c : ErrCode} {s t : CoreState} (h : raiseStartupError c s = .next t) :
    t = { s with err := c, startupErrors := s.startupErrors ++ [c] } := by
  simpa [raiseStartupError] using h.symm

/-- A successful INIT, or one startup error and nothing else written (R225). -/
theorem init_next {valid : Nat → Bool} {cfg : Cfg} {fail : BitVec 3} {s t : CoreState}
    (h : initWith valid cfg fail s = .next t) :
    s.life = .off ∧ cfg.distinctLines = true ∧ failDefined fail = true ∧
      ((validCfg valid cfg = true ∧ failAcquire fail = false ∧ failRegister fail = false ∧ t = initState cfg s) ∨
       ∃ c, c ≠ .ok ∧ t = { s with err := c, startupErrors := s.startupErrors ++ [c] }) := by
  obtain ⟨he, hb⟩ := guardStep_next h
  have hoff : s.life = .off := by simpa [initEnabled] using he
  unfold initBody at hb
  split at hb
  · cases hb
  split at hb
  · cases hb
  rename_i hd hf
  refine ⟨hoff, by simpa using hd, by simpa using hf, ?_⟩
  split at hb
  · exact .inr ⟨_, by decide, raiseStartupError_next hb⟩
  split at hb
  · exact .inr ⟨_, by decide, raiseStartupError_next hb⟩
  split at hb
  · exact .inr ⟨_, by decide, raiseStartupError_next hb⟩
  rename_i hv ha hr
  exact .inl ⟨by simpa using hv, by simpa using ha, by simpa using hr, by simpa using hb.symm⟩

theorem tdbegin_next {s t : CoreState} (h : tdbegin s = .next t) :
    tdbeginEnabled s = true ∧
      t = { s with irqA := false, irqB := false, smPend := false, cancel := true, pwmRun := false,
                   life := .draining } := by
  obtain ⟨he, hb⟩ := guardStep_next h
  exact ⟨he, by simpa using hb.symm⟩

theorem tdend_next {s t : CoreState} (h : tdend s = .next t) :
    tdendEnabled s = true ∧
      t = { s with heldInc := false, heldDec := false, heldOut := false, life := .off } := by
  obtain ⟨he, hb⟩ := guardStep_next h
  exact ⟨he, by simpa using hb.symm⟩

end Sys2Proof.Machine
end

