-- ==== Sys2Proof/Laws/Core.lean ====
section
/-! SUPPORT. The machine and the core's step relation: what lifting a step of the core to the machine can do, and that the
machine takes the relation's steps. -/

namespace Sys2Proof.Machine

@[simp] theorem coreOf_next (s : State) : coreOf (.next s) = .next s.core := rfl

/-- Lifting a step of the core changes the core's state alone. -/
theorem onCore_next {f : CoreState → CoreResult} {s t : State} (h : onCore f s = .next t) :
    f s.core = .next t.core ∧ t = s.withCore t.core := by
  unfold onCore at h
  split at h <;> cases h
  exact ⟨‹_›, rfl⟩

theorem onCore_of_next {f : CoreState → CoreResult} {s : State} {d : CoreState} (h : f s.core = .next d) :
    onCore f s = .next (s.withCore d) := by simp [onCore, h]

theorem onCore_fault {f : CoreState → CoreResult} {s : State} {x : Fault} :
    onCore f s = .fault x ↔ f s.core = .fault x := by
  unfold onCore
  cases f s.core <;> simp

theorem onCore_refused {f : CoreState → CoreResult} {s : State} {r : Refusal} :
    onCore f s = .refused r ↔ f s.core = .refused r := by
  unfold onCore
  cases f s.core <;> simp

@[simp] theorem coreOf_onCore (f : CoreState → CoreResult) (s : State) : coreOf (onCore f s) = f s.core := by
  unfold onCore
  cases f s.core <;> rfl

/-- The host's exec is the core's, lifted. -/
theorem exec_onCore (i : Instr) (s : State) : exec i s = onCore (coreExec Config.lineValid i) s := by cases i <;> rfl

/-- A line's instruction is taken as the relation takes it. -/
theorem takeInstr_onCore (i : Instr) (s : State) : takeInstr i s = onCore (coreStep Config.lineValid i) s := by
  cases i <;> rfl

/-- A step of the relation is no port operation. -/
theorem coreStep_next {valid : Nat → Bool} {i : Instr} {c d : CoreState} (h : coreStep valid i c = .next d) :
    portOpOf i = none ∧ coreExec valid i c = .next d := by
  unfold coreStep at h
  split at h
  · cases h
  · exact ⟨‹_›, h⟩

end Sys2Proof.Machine
end

