-- ==== Sys2Proof/Laws/Decode.lean ====
section
/-! SUPPORT. The decoder's spec lemmas. -/

namespace Sys2Proof

theorem decode_ok_iff {ln : TraceLine} {i : Instr} : decode ln = .ok i ↔ decodeFields ln = some i := by
  unfold decode
  cases decodeFields ln <;> simp

theorem decode_error_iff {ln : TraceLine} {e : DecodeError} :
    decode ln = .error e ↔ decodeFields ln = none ∧ e = .reservedLabel ln.label := by
  unfold decode
  cases decodeFields ln <;> simp [eq_comm]

/-- Whether a line spells a step is a matter of its label alone (R91). -/
theorem decodeFields_isSome_bare (ln : TraceLine) :
    (decodeFields ln).isSome = (decodeFields (bareLine ln.label)).isSome := by
  unfold decodeFields bareLine onlySub0
  split <;> simp_all <;> split <;> rfl

end Sys2Proof
end

