-- ==== Sys2Proof/Laws/PerInstr.lean ====
section
/-! SUPPORT. One lemma per instruction: the label format (spec/30_encoding.md rules R91, R92, R94). -/

namespace Sys2Proof.Laws.LabelFormat

/-- The instruction's label is one R92 defines, its class is one of 0x1 to 0xA, and every operand slot the
instruction has no operand for is zero in its encoding. -/
def Statement (i : Instr) : Prop :=
  (encode i).label = labelOf i ∧ labelOf i ∈ definedLabels ∧
    1#4 ≤ opcOf (labelOf i) ∧ opcOf (labelOf i) ≤ 0xA#4 ∧
    ((∀ d, i ≠ .tick d) → (encode i).delta = 0#64) ∧
    ((∀ c f, i ≠ .init c f) → (encode i).cfg = Cfg.zero ∧ (encode i).fail = 0#3)

theorem edgeA : Statement .edgeA := by simp [Statement, encode, bareLine, labelOf]; decide
theorem edgeB : Statement .edgeB := by simp [Statement, encode, bareLine, labelOf]; decide
theorem signalA : Statement .signalA := by simp [Statement, encode, bareLine, labelOf]; decide
theorem signalB : Statement .signalB := by simp [Statement, encode, bareLine, labelOf]; decide
theorem smstart : Statement .smstart := by simp [Statement, encode, bareLine, labelOf]; decide
theorem smexec : Statement .smexec := by simp [Statement, encode, bareLine, labelOf]; decide
theorem pwm : Statement .pwm := by simp [Statement, encode, bareLine, labelOf]; decide
theorem sread : Statement .sread := by simp [Statement, encode, bareLine, labelOf]; decide
theorem sinc : Statement .sinc := by simp [Statement, encode, bareLine, labelOf]; decide
theorem sdec : Statement .sdec := by simp [Statement, encode, bareLine, labelOf]; decide
theorem tick (d : Time) : Statement (.tick d) := by simp [Statement, encode, bareLine, labelOf]; decide
theorem init (cfg : Cfg) (fail : BitVec 3) : Statement (.init cfg fail) := by
  simp [Statement, encode, bareLine, labelOf]; decide
theorem tdbegin : Statement .tdbegin := by simp [Statement, encode, bareLine, labelOf]; decide
theorem tdend : Statement .tdend := by simp [Statement, encode, bareLine, labelOf]; decide

end Sys2Proof.Laws.LabelFormat
end

