-- ==== Sys2Proof/Laws/Step.lean ====
section
/-! SUPPORT. What a step of the machine can do, said once. -/

namespace Sys2Proof.Machine

/-- What is left to be listed after an operation: a proper end of the list, where the operation is in it. -/
theorem afterListed_some {op : PortOp} : ∀ {ps left : List PortOp}, afterListed op ps = some left →
    op ∈ ps ∧ left.length < ps.length
  | [], _, h => by cases h
  | p :: ps, left, h => by
    unfold afterListed at h
    split at h
    · rename_i hp
      cases h
      exact ⟨by simp [hp], by simp⟩
    · obtain ⟨hm, hl⟩ := afterListed_some h
      exact ⟨by simp [hm], by simp; omega⟩

theorem afterListed_none {op : PortOp} {ps : List PortOp} : afterListed op ps = none ↔ op ∉ ps := by
  induction ps with
  | nil => simp [afterListed]
  | cons p ps ih =>
    unfold afterListed
    split
    · rename_i hp
      simp [hp]
    · rename_i hp
      simp [ih, Ne.symm hp]

/-- A line that names no port operation lists nothing (R92). -/
theorem listedRest_of_portOpOf_none {ln : TraceLine} {i : Instr} {ops : List PortOp}
    (hd : decodeFields ln = some i) (h : portOpOf i = none) : listedRest ln ops = none := by
  simp [listedRest, hd, h]

/-- Lines that start with no listed operation are all left. -/
theorem dropListed_cons_of_none {ops : List PortOp} {ln : TraceLine} {rest : List TraceLine}
    (h : listedRest ln ops = none) : dropListed ops (ln :: rest) = ln :: rest := by simp [dropListed, h]

/-- A step that performs no port operation takes its own line alone. -/
@[simp] theorem dropListed_nil (lines : List TraceLine) : dropListed [] lines = lines := by
  cases lines with
  | nil => rfl
  | cons ln rest =>
    refine dropListed_cons_of_none ?_
    unfold listedRest
    split <;> rfl

/-- A step that answers a next state took a line of the trace and executed its instruction, which is no port operation. -/
theorem step_next {s t : State} (h : step s = .next t) :
    s.refusal = none ∧ ∃ ln rest i, s.nextLine = some (ln, rest) ∧ decodeFields ln = some i ∧
      portOpOf i = none ∧ exec i (s.advance i rest) = .next t := by
  unfold step at h
  split at h
  · cases h
  rename_i hr
  refine ⟨hr, ?_⟩
  split at h
  · cases h
  rename_i ln rest hl
  split at h
  · cases h
  rename_i i hd
  unfold takeInstr at h
  split at h
  · cases h
  exact ⟨ln, rest, i, hl, decode_ok_iff.mp hd, ‹_›, h⟩

theorem nextLine_eq_some {s : State} {ln : TraceLine} {rest : List TraceLine} :
    s.nextLine = some (ln, rest) ↔ s.trace = ln :: rest := by
  unfold State.nextLine
  cases s.trace <;> simp

end Sys2Proof.Machine
end

