-- ==== Sys2Proof/Tests/Slice0.lean ====
section
/-! SUPPORT. Tests of the model on cases of spec/95_test_vectors.md (each named in its comment), the decoder on words
written out from the label map, the refusal of each ill-formed term, and for every obligation with hypotheses a state
and operands that meet them. -/

namespace Sys2Proof.Tests

open Sys2Proof.Machine

/-! ### Helpers -/

/-- The configuration of the programs of spec/95_test_vectors.md section 3. -/
def cfg5 : Cfg := ⟨5#32, 100000#64, 17, 27, 4⟩

/-- A LINE_VALID predicate that holds of the identifiers of those programs. -/
def validIds (id : Nat) : Bool := [17, 27, 4].contains id

/-- Power-up. -/
def off : State := State.reset

/-- After a successful INIT of `cfg5` at T = 0. -/
def active : State := off.withCore (initState cfg5 off.core)

/-- `active` at a level, with the S that agrees with it. -/
def atLevel (l : Level) : State := { active with level := l, sat := satOf active.maxl l }

/-- A pass in flight that reads an event. -/
def inPass (maxl l : Level) (e : Event) : State :=
  { active with maxl := maxl, level := l, sat := satOf maxl l, event := e, smPhase := true }

/-- After TDBEGIN. -/
def draining : State :=
  { active with irqA := false, irqB := false, pwmRun := false, cancel := true, life := .draining }

/-- The state a step or a sequence answers, if it is a next state. -/
def nextOf : Result → Option State
  | .next t => some t
  | .fault _ => none
  | .refused _ => none

/-- A view of the state an INIT leaves under `validIds`. -/
def afterInit {α : Type} (cfg : Cfg) (fail : BitVec 3) (s : State) (f : State → α) : Option α :=
  (nextOf (onCore (initWith validIds cfg fail) s)).map f

/-- A view of the state an instruction leaves. -/
def after {α : Type} (i : Instr) (s : State) (f : State → α) : Option α := (nextOf (exec i s)).map f

/-- The state an instruction leaves, or the state before. -/
def post (i : Instr) (s : State) : State := (nextOf (exec i s)).getD s

/-- The state a sequence leaves, or the state before. -/
def postAll (is : List Instr) (s : State) : State := (nextOf (execAll is s)).getD s

/-! ### WellFormed: each check refuses its ill-formed term (R224, R105) -/

theorem test_wf_accepts : (Instr.init cfg5 0b101#3).wf = true := by decide
theorem test_wf_same_inc_dec : (Instr.init ⟨5#32, 1#64, 4, 4, 5⟩ 0b000#3).wf = false := by decide
theorem test_wf_same_inc_out : (Instr.init ⟨5#32, 1#64, 4, 5, 4⟩ 0b000#3).wf = false := by decide
theorem test_wf_same_dec_out : (Instr.init ⟨5#32, 1#64, 5, 4, 4⟩ 0b000#3).wf = false := by decide
theorem test_wf_fail_110 : (Instr.init cfg5 0b110#3).wf = false := by decide
theorem test_wf_fail_111 : (Instr.init cfg5 0b111#3).wf = false := by decide

/-! ### Decode: every label of R92, written out bit by bit, and reserved ones of R104 -/

theorem test_decode_edge :
    decode (bareLine 0b00010000#8) = .ok .edgeA ∧ decode (bareLine 0b00010001#8) = .ok .edgeB := by decide
theorem test_decode_signal :
    decode (bareLine 0b00100000#8) = .ok .signalA ∧ decode (bareLine 0b00100001#8) = .ok .signalB := by decide
theorem test_decode_sm :
    decode (bareLine 0b00110000#8) = .ok .smstart ∧ decode (bareLine 0b01000000#8) = .ok .smexec := by decide
theorem test_decode_pwm : decode (bareLine 0b01010000#8) = .ok .pwm := by decide
theorem test_decode_store :
    decode (bareLine 0b01100000#8) = .ok .sread ∧ decode (bareLine 0b01100001#8) = .ok .sinc ∧
      decode (bareLine 0b01100010#8) = .ok .sdec := by decide
theorem test_decode_tick :
    decode { bareLine 0b01110000#8 with delta := 200000000#64 } = .ok (.tick 200000000#64) := by decide
theorem test_decode_init :
    decode { bareLine 0b10000000#8 with cfg := cfg5, fail := 0b101#3 } = .ok (.init cfg5 0b101#3) := by decide
theorem test_decode_teardown :
    decode (bareLine 0b10010000#8) = .ok .tdbegin ∧ decode (bareLine 0b10100000#8) = .ok .tdend := by decide
theorem test_decode_reserved :
    [0x00#8, 0x0F#8, 0x12#8, 0x18#8, 0x22#8, 0x31#8, 0x41#8, 0x51#8, 0x63#8, 0x71#8, 0x81#8, 0x91#8, 0xA1#8, 0xB0#8,
      0xFF#8].all (fun l => decode (bareLine l) == .error (.reservedLabel l)) = true := by decide
theorem test_decode_table_word :
    decodeTableWord 8 0x11 = some .edgeB ∧ decodeTableWord 8 0x12 = none ∧ decodeTableWord 16 0x11 = none := by decide

/-! ### Fetch -/

/-- A table word placed in front of the trace is the one the next step executes. -/
theorem test_withFetchWord_tick :
    (nextOf (step (State.reset.withFetchWord 8 0x70))).map (fun t => (t.time, t.trace)) = some (0#64, []) := by decide
theorem test_withFetchWord_pwm :
    (nextOf (step (active.withFetchWord 8 0x50))).map (fun t => t.output) = some [.wr false] := by decide
/-- R92: a port operation's label is the next line, and is no step of its own. -/
theorem test_withFetchWord_sinc :
    ((atLevel 2#32).withFetchWord 8 0x61).trace = [bareLine 0x61#8] ∧
      step ((atLevel 2#32).withFetchWord 8 0x61) = .fault .notEnabled := ⟨by decide, rfl⟩
/-- R104: a reserved label is refused. -/
theorem test_step_reserved :
    nextOf (step (active.withFetchWord 8 0x63)) = none := by decide

/-! ### Debounce Filter (95, section 2.2 and 2.3) -/

/-- DB2: elapsed exactly WINDOW accepts. -/
theorem test_edgeA_DB2 :
    after .edgeA { active with time := 200000000#64 } (fun t => (t.dclkA, t.event, t.isrA, t.dclkB, t.smPend)) =
      some (200000000#64, .increase, true, 0#64, false) := by decide
/-- DB1: one nanosecond less rejects. -/
theorem test_edgeA_DB1 :
    after .edgeA { active with time := 199999999#64 } (fun t => (t.dclkA, t.event, t.isrA)) =
      some (0#64, .none, false) := by decide
/-- DB3. -/
theorem test_edgeB_DB3 :
    after .edgeB { active with time := 200000000#64 } (fun t => (t.dclkB, t.event, t.isrB, t.dclkA)) =
      some (200000000#64, .decrease, true, 0#64) := by decide
/-- DB5: the elapsed time wraps. -/
theorem test_edgeB_DB5 :
    after .edgeB { active with window := 200#64, dclkB := 0xFFFFFFFFFFFFFF9C#64, time := 100#64 }
      (fun t => (t.dclkB, t.isrB)) = some (100#64, true) := by decide
/-- SG1. -/
theorem test_signalA_SG1 :
    after .signalA { active with isrA := true } (fun t => (t.smPend, t.isrA)) = some (true, false) := by decide
/-- SG4. -/
theorem test_signalA_SG4 : exec .signalA active = .fault .notEnabled := by rfl
/-- SG3: a pass in flight; the other line's handler is left. -/
theorem test_signalB_SG3 :
    after .signalB { active with isrA := true, isrB := true, smPhase := true }
      (fun t => (t.smPend, t.isrA, t.isrB, t.smPhase)) = some (true, true, false, true) := by decide

/-! ### State Machine (95, section 2.4) -/

theorem test_smstart :
    after .smstart { active with smPend := true } (fun t => (t.smPend, t.smPhase)) = some (false, true) := by decide
/-- With SM_PHASE = 1 it is not enabled. -/
theorem test_smstart_busy : nextOf (exec .smstart { active with smPend := true, smPhase := true }) = none := by decide
/-- SM9, and SM19: pct truncates. -/
theorem test_smexec_table :
    after .smexec (inPass 5#32 5#32 .decrease) (fun t => (t.level, t.sat, t.output, t.smPhase)) =
      some (4#32, .on, [.obs 4#32 80#8], false) ∧
    after .smexec (inPass 0x7FFFFFFF#32 0#32 .increase) (fun t => (t.level, t.sat, t.output, t.event)) =
      some (1#32, .on, [.obs 1#32 0#8], .increase) := by decide
/-- SM12 and SM14: MAXL = 1, and MAXL = 0 (R141). -/
theorem test_smexec_small_max :
    after .smexec (inPass 1#32 0#32 .increase) (fun t => (t.level, t.sat, t.output)) =
      some (1#32, .max, [.obs 1#32 100#8]) ∧
    after .smexec (inPass 0#32 0#32 .increase) (fun t => (t.level, t.sat, t.output)) =
      some (0#32, .off, [.obs 0#32 0#8]) := by decide
/-- The read-only table of R103 at two addresses, and one of the seven with no entry. -/
theorem test_rom :
    romAction 0b1001#4 = some 0b00#2 ∧ romAction 0b0110#4 = some 0b10#2 ∧ romAction 0b0111#4 = none := by decide

/-! ### Shared Brightness Store (95, section 2.5) -/

/-- ST1: the Result, and the level left. -/
theorem test_sread_ST1 :
    storeRead (atLevel 3#32).core = 3#32 ∧ after .sread (atLevel 3#32) (fun t => t.level) = some 3#32 := by decide
/-- R173: not a step of its own. -/
theorem test_sread_own : coreStep validIds .sread (atLevel 3#32).core = .fault .notEnabled := by rfl
/-- ST4, and ST5: no wrapped value. -/
theorem test_sinc_ST4_ST5 :
    after .sinc { active with maxl := 0x7FFFFFFF#32, level := 0x7FFFFFFE#32 } (fun t => t.level) =
      some 0x7FFFFFFF#32 ∧
    nextOf (exec .sinc (atLevel 5#32)) = none := by decide
/-- R173: INIT max=5, then SINC: not a step of its own. -/
theorem test_sinc_own : step { active with trace := [bareLine 0x61#8] } = .fault .notEnabled := by rfl
/-- ST3, and ST5: no wrapped value. -/
theorem test_sdec_ST3_ST5 :
    after .sdec (atLevel 5#32) (fun t => t.level) = some 4#32 ∧
    nextOf (exec .sdec (atLevel 0#32)) = none := by decide
/-- R173: one SDEC and one SREAD go with an SMEXEC, in that order; a second SDEC listed is stuck. -/
theorem test_sdec_listed_once :
    (runTrace [bareLine 0x40#8, bareLine 0x62#8, bareLine 0x62#8] (inPass 5#32 5#32 .decrease)).2 =
      .stuck .notEnabled ∧
    (runTrace [bareLine 0x40#8, bareLine 0x62#8, bareLine 0x60#8] (inPass 5#32 5#32 .decrease)).1.level = 4#32 := by
  decide

/-! ### PWM Engine (95, sections 2.6 and 2.7) -/

/-- DW7 and DW11: multiply first, exact product. -/
theorem test_dwell :
    hiDwell 10#64 4#32 3#32 = 7 ∧ loDwell 10#64 4#32 3#32 = 3 ∧
    hiDwell 0xFFFFFFFFFFFFFFFF#64 0x7FFFFFFF#32 0x7FFFFFFE#32 = 18446744065119617018 ∧
    loDwell 0xFFFFFFFFFFFFFFFF#64 0x7FFFFFFF#32 0x7FFFFFFE#32 = 8589934597 := by decide
/-- PW5, and PW10: the elapsed time wraps. -/
theorem test_pwm_interior :
    after .pwm { atLevel 2#32 with time := 59999#64 } (fun t => (t.out, t.pclk, t.output)) = some (false, 0#64, []) ∧
    after .pwm { atLevel 2#32 with pclk := 0xFFFFFFFFFFFFFFF6#64, time := 59990#64 }
      (fun t => (t.out, t.pclk, t.output)) = some (true, 59990#64, [.wr true]) := by decide
/-- PW1 and PW3: the boundaries leave PCLK. -/
theorem test_pwm_boundary :
    after .pwm { atLevel 0#32 with out := true, pclk := 7#64, time := 1000#64 } (fun t => (t.out, t.pclk, t.output)) =
      some (false, 7#64, [.wr false]) ∧
    after .pwm { atLevel 5#32 with pclk := 7#64, time := 1000#64 } (fun t => (t.out, t.pclk, t.output)) =
      some (true, 7#64, [.wr true]) := by decide

/-! ### Host and lifecycle (95, section 2.8) -/

/-- HL1. -/
theorem test_tick_HL1 :
    after (.tick 1#64) { off with time := 0xFFFFFFFFFFFFFFFF#64 } (fun t => t.time) = some 0#64 := by decide
/-- HL3. -/
theorem test_init_HL3 :
    afterInit ⟨0xFFFFFFFD#32, 100#64, 17, 27, 4⟩ 0b000#3 { off with time := 9#64 }
      (fun t => (t.life, t.maxl, t.level, t.sat, t.event)) = some (.active, 0#32, 0#32, .off, .none) ∧
    afterInit ⟨0xFFFFFFFD#32, 100#64, 17, 27, 4⟩ 0b000#3 { off with time := 9#64 }
      (fun t => (t.dclkA, t.dclkB, t.pclk, t.out, t.err)) = some (9#64, 9#64, 9#64, false, .ok) := by decide
/-- HL4 to HL7. -/
theorem test_init_errors :
    afterInit ⟨5#32, 1#64, 17, 27, 5⟩ 0b001#3 off (fun t => (t.err, t.life)) = some (.invalidLineIdentifier, .off) ∧
    afterInit cfg5 0b010#3 off (fun t => (t.err, t.life, t.irqA, t.heldInc)) =
      some (.lineAcquisitionFailed, .off, false, false) ∧
    afterInit cfg5 0b100#3 off (fun t => (t.err, t.life)) = some (.interruptRegistrationFailed, .off) ∧
    exec (.init ⟨5#32, 1#64, 4, 4, 5⟩ 0b000#3) off = .refused .sameLine := ⟨by decide, by decide, by decide, rfl⟩
/-- HL10. -/
theorem test_tdbegin_HL10 :
    after .tdbegin { active with smPend := true }
      (fun t => (t.smPend, t.cancel, t.pwmRun, t.irqA, t.irqB, t.life)) =
      some (false, true, false, false, false, .draining) := by decide
/-- HL9. -/
theorem test_tdbegin_HL9 : nextOf (exec .tdbegin { active with isrA := true }) = none := by decide
/-- HL13. -/
theorem test_tdend_HL13 :
    after .tdend draining (fun t => (t.life, t.heldInc, t.heldDec, t.heldOut)) = some (.off, false, false, false) := by
  decide
/-- HL12. -/
theorem test_tdend_HL12 : nextOf (exec .tdend { draining with smPhase := true }) = none := by decide

/-! ### Trace text (R107, with lines of 95, section 3) -/

theorem test_text_tick :
    readTextLine "TICK 200ms                ; 0x70".toList = some (.step (.tick 200000000#64)) := by decide
theorem test_text_init :
    readTextLine "INIT max=-7 period=0x10 inc=17 dec=27 out=4 fail=reg_dec".toList =
      some (.step (.init ⟨0xFFFFFFF9#32, 16#64, 17, 27, 4⟩ 0b101#3)) := by decide
theorem test_text_edge : readTextLine "EDGE A @200 ; accepted".toList = some (.step .edgeA) := by decide
theorem test_text_pseudo :
    readTextLine "EVENT B".toList = some (.pseudo (.event .b)) ∧ readTextLine "EDGE C".toList = none := by decide
/-- R107's number forms, and the ones the model leaves out (log entry 19). -/
theorem test_text_numbers :
    readTextLine "TICK 0x10".toList = some (.step (.tick 16#64)) ∧
    readTextLine "INIT max=5 period=1ms inc=17 dec=27 out=4".toList = none ∧
    readTextLine "INIT max=+5 period=1 inc=17 dec=27 out=4".toList = none := by decide

/-! ### Hypotheses met: for each obligation that has hypotheses, a state and operands that meet them together -/

/-- `active` in a state where both lines have been quiet for exactly one window. -/
def quiet : State := { active with time := 200000000#64 }

/-- `quiet` at a level. -/
def quietAt (l : Level) : State := { quiet with level := l, sat := satOf quiet.maxl l }

/-- R109 with a listed SINC (R92): the second EVENT A, whose edge is rejected, expands to EDGE A alone. -/
theorem test_expand_listed :
    expandAll [.pseudo (.event .a), .step .sinc, .pseudo (.event .a)] quiet =
      [.edgeA, .signalA, .smstart, .smexec, .sinc, .edgeA] := by decide

theorem inv_active : MachineInv active.core := by
  constructor <;> (try unfold LevelInRange) <;> decide

theorem inv_inPass : MachineInv (inPass 5#32 4#32 .increase).core := by
  constructor <;> (try unfold LevelInRange) <;> decide

theorem inv_draining : MachineInv draining.core := by
  constructor <;> (try unfold LevelInRange) <;> decide

theorem witness_ReservedLabelsRefused :
    ∃ (s : State) (ln : TraceLine) (rest : List TraceLine), s.refusal = none ∧ s.trace = ln :: rest ∧ ln ∈ s.trace ∧ ln.label ∉ definedLabels :=
  ⟨active.withFetchWord 8 0x63, bareLine 0x63#8, [], by decide, by decide, by decide, by decide⟩

theorem witness_StepExecutesNextLine :
    (∃ s ln rest, s.refusal = none ∧ s.trace = ln :: rest ∧ decode ln = .ok .pwm ∧ portOpOf .pwm = none ∧
      ∃ t, exec .pwm s = .next t) ∧
    (∃ (s : State) (ln : TraceLine) (rest : List TraceLine), s.refusal = none ∧ s.trace = ln :: rest ∧
      decode ln = .ok .sinc ∧ portOpOf .sinc ≠ none) ∧
    (∃ (s : State) (r : Refusal), s.refusal = some r) :=
  ⟨⟨active.pushLine (bareLine 0x50#8), bareLine 0x50#8, [], by decide, by decide, by decide, by decide, _, rfl⟩,
   ⟨active.pushLine (bareLine 0x61#8), bareLine 0x61#8, [], by decide, by decide, by decide, by decide⟩,
   ⟨active.markRefused .sameLine, .sameLine, rfl⟩⟩

/-- An INIT with two equal identifiers, and one with a reserved fail selector, after a teardown. -/
theorem witness_RefusalMarksTheRun :
    (∃ s r, step s = .refused r) ∧ (∃ (s : State) (r : Refusal), s.refusal = some r) ∧
    (∃ (is : List Instr) (cfg : Cfg) (s t : State), s.refusal = none ∧ execAll is s = .next t ∧
      t.life = .off ∧ ¬(cfg.idInc ≠ cfg.idDec ∧ cfg.idInc ≠ cfg.idOut ∧ cfg.idDec ≠ cfg.idOut)) ∧
    (∃ (is : List Instr) (fail : BitVec 3) (s t : State), s.refusal = none ∧
      execAll is s = .next t ∧ t.life = .off ∧ (fail = 0b110#3 ∨ fail = 0b111#3)) :=
  ⟨⟨active.withFetchWord 8 0x63, .reservedLabel 0x63#8, rfl⟩, ⟨active.markRefused .sameLine, .sameLine, rfl⟩,
   ⟨[.tdbegin, .tdend], Cfg.zero, active, postAll [.tdbegin, .tdend] active, by decide, rfl, by decide,
    by decide⟩,
   ⟨[.tick 1#64], 0b111#3, off, post (.tick 1#64) off, by decide, rfl, by decide, by decide⟩⟩

theorem witness_EnabledStepsComplete :
    (∃ i s, MachineInv (State.core s) ∧ enabled i s.core = true ∧ i.wf = true) ∧ ∃ i c, enabled i c = false :=
  ⟨⟨.smexec, _, inv_inPass, by decide, by decide⟩, ⟨.sinc, active.core, rfl⟩⟩

theorem witness_TraceRunsStepsInOrder :
    (∃ is s t, s.refusal = none ∧ execAll is s = .next t) ∧
    (∃ is i s t, s.refusal = none ∧ execAll is s = .next t ∧ portOpOf i = none ∧
      exec i t = .fault .notEnabled) :=
  ⟨⟨[.edgeA, .signalA, .smstart, .smexec], quiet, _, by decide, rfl⟩,
   ⟨[.edgeA], .smstart, quiet, post .edgeA quiet, by decide, rfl, by decide, rfl⟩⟩

/-- All that an incrementing SMEXEC performs is listed, only the SDEC of a decrementing one, and the SREAD of a PWM. -/
theorem witness_DetailedTraceListsStoreWrite :
    (∃ s t ops rest, s.refusal = none ∧ ops = [.inc, .read] ∧ List.Sublist ops (performs .smexec s.core) ∧
      s.trace = encode .smexec :: (ops.map (fun op => encode (portInstr op)) ++ rest) ∧ rest.head? = none ∧
      exec .smexec s = .next t) ∧
    (∃ s t ops rest, s.refusal = none ∧ ops = [.dec] ∧ List.Sublist ops (performs .smexec s.core) ∧
      s.trace = encode .smexec :: (ops.map (fun op => encode (portInstr op)) ++ rest) ∧
      (∀ ln j, rest.head? = some ln → decode ln = .ok j → portOpOf j = none) ∧ exec .smexec s = .next t) ∧
    (∃ s t ops rest, s.refusal = none ∧ ops = [.read] ∧ List.Sublist ops (performs .pwm s.core) ∧
      s.trace = encode .pwm :: (ops.map (fun op => encode (portInstr op)) ++ rest) ∧ rest.head? = none ∧
      exec .pwm s = .next t) :=
  ⟨⟨{ inPass 5#32 4#32 .increase with trace := [encode .smexec, encode .sinc, encode .sread] }, _, [.inc, .read], [],
    by decide, by decide, by decide, by decide, rfl, rfl⟩,
   ⟨{ inPass 5#32 1#32 .decrease with trace := [encode .smexec, encode .sdec, encode .tdbegin] }, _, [.dec],
    [encode .tdbegin], by decide, by decide, by decide, by decide,
    fun ln j h hd => by
      obtain rfl : encode .tdbegin = ln := by simpa using h
      obtain rfl : Instr.tdbegin = j := by simpa [show decode (encode .tdbegin) = .ok .tdbegin from rfl] using hd
      rfl, rfl⟩,
   ⟨{ active with trace := [encode .pwm, encode .sread] }, _, [.read], [], by decide, by decide, by decide, by decide,
    rfl, rfl⟩⟩

theorem witness_PortOperationsAreNotScheduled :
    (∃ (i : Instr) (op : PortOp), portOpOf i = some op) ∧
    (∃ (valid : Nat → Bool) (is : List Instr) (c d : CoreState), is ≠ [] ∧ coreSteps valid is c = .next d) ∧
    (∃ (s : State) (ln : TraceLine) (rest : List TraceLine) (i : Instr) (op : PortOp),
      s.refusal = none ∧ s.trace = ln :: rest ∧ decode ln = .ok i ∧ portOpOf i = some op) :=
  ⟨⟨.sinc, .inc, by decide⟩, ⟨validIds, [.smexec, .pwm], (inPass 5#32 4#32 .increase).core, _, by decide, rfl⟩,
   ⟨active.pushLine (bareLine 0x60#8), bareLine 0x60#8, [], .sread, .read, by decide, by decide, by decide, by decide⟩⟩

theorem witness_PseudoStepsExpand :
    (∃ x s, edgeEnabled x s = true ∧ edgeAccepted x s = true) ∧
    (∃ x s, edgeEnabled x s = true ∧ edgeAccepted x s = false) :=
  ⟨⟨.a, quiet.core, by decide, by decide⟩, ⟨.b, State.core { active with time := 199999999#64 }, by decide, by decide⟩⟩

theorem witness_EdgeDecidesByWindow :
    ∃ s : State, s.life = .active ∧ s.irqA = true ∧ s.isrA = false ∧ s.irqB = true ∧ s.isrB = false ∧
      s.window.toNat = (s.time.toNat + 2 ^ 64 - s.dclkA.toNat) % 2 ^ 64 ∧
      (s.time.toNat + 2 ^ 64 - s.dclkB.toNat) % 2 ^ 64 + 1 = s.window.toNat :=
  ⟨{ quiet with dclkB := 1#64 }, by decide, by decide, by decide, by decide, by decide, by decide, by decide⟩

theorem witness_SignalSubmitsCoalesced : ∃ s : State, s.isrA = true ∧ s.isrB = true :=
  ⟨{ active with isrA := true, isrB := true }, by decide, by decide⟩

theorem witness_LinesAreIndependent :
    (∃ x y : Line, y ≠ x ∧ ∃ s t, exec (edgeInstr x) s = .next t ∧ edgeAccepted x s.core = true) ∧
    (∃ x y : Line, y ≠ x ∧ ∃ s t, exec (signalInstr x) s = .next t) :=
  ⟨⟨.a, .b, by decide, quiet, _, rfl, by decide⟩, ⟨.b, .a, by decide, { active with isrB := true }, _, rfl⟩⟩

theorem witness_SecondEdgeNeedsWindow :
    (∃ x s s1 is s2, exec (edgeInstr x) s = .next s1 ∧ edgeAccepted x s.core = true ∧ noAcceptedEdge Config.lineValid x is s1.core = true ∧
      execAll is s1 = .next s2 ∧ edgeEnabled x s2.core = true ∧
      s.window.toNat = (s2.time.toNat + 2 ^ 64 - s.time.toNat) % 2 ^ 64) ∧
    (∃ x s s1 is s2, exec (edgeInstr x) s = .next s1 ∧ edgeAccepted x s.core = true ∧ noAcceptedEdge Config.lineValid x is s1.core = true ∧
      execAll is s1 = .next s2 ∧ edgeEnabled x s2.core = true ∧
      (s2.time.toNat + 2 ^ 64 - s.time.toNat) % 2 ^ 64 + 1 = s.window.toNat) :=
  ⟨⟨.a, quiet, post .edgeA quiet, [.signalA, .tick 150000000#64, .edgeA, .tick 50000000#64],
    postAll [.edgeA, .signalA, .tick 150000000#64, .edgeA, .tick 50000000#64] quiet, rfl, by decide, by decide, rfl,
    by decide, by decide⟩,
   ⟨.b, quiet, post .edgeB quiet, [.signalB, .tick 199999999#64],
    postAll [.edgeB, .signalB, .tick 199999999#64] quiet, rfl, by decide, by decide, rfl, by decide, by decide⟩⟩

theorem witness_QuietWindowAfterInit :
    ∃ valid cfg fail s s1, initWith valid cfg fail s = .next s1 ∧ s1.life = .active ∧
      ∃ x is s2, noAcceptedEdge valid x is s1 = true ∧ coreSteps valid is s1 = .next s2 ∧ edgeEnabled x s2 = true ∧
        (s2.time.toNat + 2 ^ 64 - s.time.toNat) % 2 ^ 64 + 1 = s.window.toNat :=
  ⟨validIds, cfg5, 0b000#3, off.core, active.core, rfl, by decide, .a, [.tick 199999999#64],
   (post (.tick 199999999#64) active).core, by decide,
   rfl, by decide, by decide⟩

/-- At both ends of the range: level 0, and level MAXL; and a delay of exactly the window. -/
theorem witness_LastEventWins :
    ∃ s s' : State, s.level = 0#32 ∧ s'.level = s'.maxl ∧ ∀ u, (u = s ∨ u = s') →
      u.life = .active ∧ u.irqA = true ∧ u.irqB = true ∧ u.isrA = false ∧ u.isrB = false ∧ u.smPhase = false ∧
        edgeAccepted .a u.core = true ∧ edgeAccepted .b u.core = true ∧ u.sat = satOf u.maxl u.level ∧ u.level ≤ u.maxl ∧
        u.window ≤ 200000000#64 :=
  ⟨quietAt 0#32, quietAt 5#32, by decide, by decide, by rintro u (rfl | rfl) <;> decide⟩

theorem witness_OneEventAppliedTwice :
    ∃ s : State, s.life = .active ∧ s.irqB = true ∧ s.isrB = false ∧ s.smPend = true ∧ s.smPhase = false ∧
      edgeAccepted .b s.core = true ∧ s.sat = satOf s.maxl s.level ∧ s.level = 2#32 ∧ s.level ≤ s.maxl :=
  ⟨{ quietAt 2#32 with smPend := true }, by decide, by decide, by decide, by decide, by decide, by decide, by decide,
   by decide, by decide⟩

theorem witness_SmstartClaimsPass : ∃ s : State, s.life = .active ∧ s.smPend = true ∧ s.smPhase = false :=
  ⟨{ active with smPend := true }, by decide, by decide, by decide⟩

/-- One pass of each kind: an increment to MAXL, a decrement to 0, a suppressed increment. -/
theorem witness_SmexecRunsPass :
    ∀ s ∈ [inPass 5#32 4#32 .increase, inPass 5#32 1#32 .decrease, inPass 5#32 5#32 .increase],
      s.smPhase = true ∧ s.sat = satOf s.maxl s.level ∧ s.level ≤ s.maxl := by decide

theorem witness_DegenerateMaxLevel : ∃ s : State, s.smPhase = true ∧ s.maxl = 0#32 ∧ s.level = 0#32 :=
  ⟨inPass 0#32 0#32 .increase, by decide, by decide, by decide⟩

theorem witness_OneObservationPerPass :
    (∃ s t, exec .smexec s = .next t) ∧ ∃ i s t, i ≠ Instr.smexec ∧ exec i s = .next t :=
  ⟨⟨inPass 3#32 1#32 .increase, _, rfl⟩, ⟨.pwm, active, _, by decide, rfl⟩⟩

theorem witness_PassesSaturate :
    (∃ s : CoreState, s.life = .active ∧ s.smPhase = false ∧ s.event = .increase ∧ s.level = 0#32 ∧ s.sat = .off) ∧
    (∃ s : CoreState, s.life = .active ∧ s.smPhase = false ∧ s.event = .decrease ∧ s.level = s.maxl ∧
      s.sat = satOf s.maxl s.maxl) :=
  ⟨⟨State.core { active with event := .increase }, by decide, by decide, by decide, by decide, by decide⟩,
   ⟨State.core { atLevel 5#32 with event := .decrease }, by decide, by decide, by decide, by decide, by decide⟩⟩

theorem witness_StorePortOperations :
    (∃ s : State, s.level + 1#32 = s.maxl ∧ s.level < s.maxl) ∧ (∃ s : State, s.level = 1#32 ∧ s.level ≠ 0#32) :=
  ⟨⟨atLevel 4#32, by decide, by decide⟩, ⟨atLevel 1#32, by decide, by decide⟩⟩

theorem witness_StoreBoundsFault : (∃ s : State, s.maxl ≤ s.level ∧ s.maxl = s.level) ∧ ∃ s : State, s.level = 0#32 :=
  ⟨⟨atLevel 5#32, by decide, by decide⟩, ⟨atLevel 0#32, by decide⟩⟩

theorem witness_PwmForcesBoundaries :
    (∃ s : State, s.life = .active ∧ s.pwmRun = true ∧ s.cancel = false ∧ s.level = 0#32) ∧
    (∃ s : State, s.life = .active ∧ s.pwmRun = true ∧ s.cancel = false ∧ s.level ≠ 0#32 ∧ s.level = s.maxl) :=
  ⟨⟨atLevel 0#32, by decide, by decide, by decide, by decide⟩,
   ⟨atLevel 5#32, by decide, by decide, by decide, by decide, by decide⟩⟩

/-- Level 1 with the output HIGH, and level MAXL - 1 with it LOW. -/
theorem witness_PwmFlipsWhenDwellReached :
    ∀ s ∈ [{ atLevel 1#32 with out := true }, atLevel 4#32],
      s.life = .active ∧ s.pwmRun = true ∧ s.cancel = false ∧ 0#32 < s.level ∧ s.level < s.maxl := by decide

theorem witness_DwellsSplitPeriod : ∃ maxl l : Level, 0#32 < l ∧ l + 1#32 = maxl ∧ l < maxl :=
  ⟨0x7FFFFFFF#32, 0x7FFFFFFE#32, by decide, by decide, by decide⟩

theorem witness_ZeroPeriodAlwaysFlips :
    ∃ s : State, s.life = .active ∧ s.pwmRun = true ∧ s.cancel = false ∧ 0#32 < s.level ∧ s.level < s.maxl ∧
      s.period = 0#64 :=
  ⟨{ atLevel 2#32 with period := 0#64 }, by decide, by decide, by decide, by decide, by decide, by decide⟩

theorem witness_PwmWaveform :
    ∃ (s : State) (hi lo : Time), s.life = .active ∧ s.pwmRun = true ∧ s.cancel = false ∧ 0#32 < s.level ∧
      s.level < s.maxl ∧ s.out = true ∧ s.pclk = s.time ∧
      hi = BitVec.ofNat 64 (hiDwell s.period s.maxl s.level) ∧
      lo = BitVec.ofNat 64 (loDwell s.period s.maxl s.level) ∧ hi - 1#64 < hi ∧ lo - 1#64 < lo :=
  ⟨{ atLevel 2#32 with out := true }, 40000#64, 60000#64, by decide, by decide, by decide, by decide, by decide,
   by decide, by decide, by decide, by decide, by decide, by decide⟩

theorem witness_PwmRunsUntilTeardown :
    (∃ valid cfg fail s t, initWith valid cfg fail s = .next t ∧ t.life = .active) ∧
    (∃ s t, pwmEnabled (State.core s) = true ∧ exec .tdbegin s = .next t) ∧ (∃ s t, pwmEnabled (State.core s) = true ∧ exec .pwm s = .next t) :=
  ⟨⟨validIds, cfg5, 0b000#3, off.core, active.core, rfl, by decide⟩, ⟨active, _, by decide, rfl⟩, ⟨active, _, by decide, rfl⟩⟩

/-- A pass that leaves level 0, one that leaves MAXL, and one between two interior levels. -/
theorem witness_PwmSeesOldOrNewLevel :
    ∀ s ∈ [inPass 1#32 0#32 .increase, inPass 5#32 5#32 .decrease, inPass 5#32 2#32 .increase],
      s.life = .active ∧ s.pwmRun = true ∧ s.cancel = false ∧ s.smPhase = true ∧
        s.sat = satOf s.maxl s.level ∧ s.level ≤ s.maxl := by decide

theorem witness_OutputLineFollowsRecords :
    ∃ i s t, (∀ cfg fail, i ≠ Instr.init cfg fail) ∧ levelFromRecords s.output = s.out ∧ exec i s = .next t ∧
      t.heldOut = true :=
  ⟨.pwm, atLevel 5#32, _, by intros; exact Instr.noConfusion, by decide, rfl, by decide⟩

theorem witness_OutputPorts :
    (∃ s : CoreState, s.heldOut = true) ∧ (∃ valid cfg fail s t, initWith valid cfg fail s = .next t) ∧
    (∃ i s t, (∀ cfg fail, i ≠ Instr.init cfg fail) ∧ exec i s = .next t) ∧ (∃ s t, exec .smexec s = .next t) ∧
    (∃ i s t, i ≠ Instr.smexec ∧ exec i s = .next t) :=
  ⟨⟨active.core, by decide⟩, ⟨validIds, cfg5, 0b000#3, off.core, active.core, rfl⟩,
   ⟨.pwm, active, _, by intros; exact Instr.noConfusion, rfl⟩, ⟨inPass 3#32 1#32 .increase, _, rfl⟩,
   ⟨.pwm, active, _, by decide, rfl⟩⟩

theorem witness_NoOutputWriteAfterTeardownBegins :
    ∃ s is t, noInit is = true ∧ execAll (.tdbegin :: is) s = .next t :=
  ⟨inPass 5#32 4#32 .increase, [.smexec, .tick 1#64, .tdend], _, by decide, rfl⟩

theorem witness_TimeNeverGoesBack :
    (∃ i s t, exec i s = .next t ∧ ∀ d, i ≠ Instr.tick d) ∧
    (∃ d s t, exec (.tick d) s = .next t ∧ s.time.toNat + d.toNat < 2 ^ 64 ∧ s.time.toNat + d.toNat + 1 = 2 ^ 64) :=
  ⟨⟨.pwm, active, _, rfl, by intros; exact Instr.noConfusion⟩,
   ⟨0xFFFFFFFFFFFFFFF5#64, { active with time := 10#64 }, _, rfl, by decide, by decide⟩⟩

theorem witness_InitBuildsEveryRegister :
    ∃ (valid : Nat → Bool) (cfg : Cfg) (s : CoreState), s.life = .off ∧ cfg.idInc ≠ cfg.idDec ∧ cfg.idInc ≠ cfg.idOut ∧
      cfg.idDec ≠ cfg.idOut ∧ valid cfg.idInc = true ∧ valid cfg.idDec = true ∧ valid cfg.idOut = true :=
  ⟨validIds, cfg5, off.core, by decide, by decide, by decide, by decide, by decide, by decide, by decide⟩

theorem witness_InitCompletes :
    ∃ (cfg : Cfg) (fail : BitVec 3) (s : State), s.life = .off ∧ cfg.idInc ≠ cfg.idDec ∧ cfg.idInc ≠ cfg.idOut ∧
      cfg.idDec ≠ cfg.idOut ∧ fail ≠ 0b110#3 ∧ fail ≠ 0b111#3 :=
  ⟨cfg5, 0b101#3, off, by decide, by decide, by decide, by decide, by decide, by decide⟩

/-- An identifier that is not valid, and valid ones with a failing acquisition or registration. -/
theorem witness_InitErrorsRollBack :
    (∃ (valid : Nat → Bool) (cfg : Cfg) (s : CoreState), s.life = .off ∧ cfg.distinctLines = true ∧
      ¬(valid cfg.idInc = true ∧ valid cfg.idDec = true ∧ valid cfg.idOut = true)) ∧
    (∃ (valid : Nat → Bool) (cfg : Cfg) (s : CoreState), s.life = .off ∧ cfg.distinctLines = true ∧
      valid cfg.idInc = true ∧ valid cfg.idDec = true ∧ valid cfg.idOut = true) ∧
    (∀ fail ∈ [0b001#3, 0b010#3, 0b011#3, 0b100#3, 0b101#3], fail ≠ 0b110#3 ∧ fail ≠ 0b111#3) :=
  ⟨⟨validIds, ⟨5#32, 1#64, 17, 27, 5⟩, off.core, by decide, by decide, by decide⟩,
   ⟨fun _ => true, cfg5, off.core, by decide, by decide, by decide, by decide, by decide⟩, by decide⟩

theorem witness_InitRefusals :
    (∃ (cfg : Cfg) (s : State), s.life = .off ∧
      (cfg.idInc = cfg.idDec ∨ cfg.idInc = cfg.idOut ∨ cfg.idDec = cfg.idOut)) ∧
    (∀ fail ∈ [0b110#3, 0b111#3], ∃ (cfg : Cfg) (s : State), s.life = .off ∧ cfg.idInc ≠ cfg.idDec ∧
      cfg.idInc ≠ cfg.idOut ∧ cfg.idDec ≠ cfg.idOut ∧ (fail = 0b110#3 ∨ fail = 0b111#3)) :=
  ⟨⟨⟨5#32, 1#64, 4, 4, 5⟩, off, by decide, by decide⟩,
   fun fail h => ⟨cfg5, off, by decide, by decide, by decide, by decide, by simpa using h⟩⟩

theorem witness_TdbeginCancels : ∃ s : State, s.life = .active ∧ s.isrA = false ∧ s.isrB = false :=
  ⟨active, by decide, by decide, by decide⟩

theorem witness_TdendReleases : ∃ s : State, s.life = .draining ∧ s.smPhase = false :=
  ⟨draining, by decide, by decide⟩

theorem witness_TeardownDropsPendingPass :
    (∃ s : State, s.life = .active ∧ s.isrA = false ∧ s.isrB = false ∧ s.smPhase = false ∧ s.smPend = true) ∧
    (∃ s : State, s.life = .active ∧ s.isrA = false ∧ s.isrB = false ∧ s.smPhase = true ∧
      s.sat = satOf s.maxl s.level ∧ s.level ≤ s.maxl) :=
  ⟨⟨{ active with smPend := true }, by decide, by decide, by decide, by decide, by decide⟩,
   ⟨inPass 5#32 4#32 .increase, by decide, by decide, by decide, by decide, by decide, by decide⟩⟩

/-- Two Off states that differ in the data registers, and the INIT of both; and the two ways back to Off. -/
theorem witness_NothingSurvivesInit :
    (∃ s t, exec .tdend s = .next t) ∧
    (∃ valid cfg fail s t, initWith valid cfg fail s = .next t ∧ t.life ≠ .active) ∧
    (∃ valid cfg fail s s' t, s ≠ s' ∧ s.time = s'.time ∧ s.window = s'.window ∧ s.output = s'.output ∧
      s.startupErrors = s'.startupErrors ∧ s.refusal = s'.refusal ∧ s'.life = .off ∧
      initWith valid cfg fail s = .next t ∧ t.life = .active) :=
  ⟨⟨draining, _, rfl⟩, ⟨validIds, cfg5, 0b101#3, off.core,
    ((nextOf (onCore (initWith validIds cfg5 0b101#3) off)).getD off).core, rfl,
    by decide⟩,
   ⟨validIds, cfg5, 0b000#3, off.core, State.core { off with level := 3#32, cancel := true }, active.core,
    fun h => absurd (congrArg (fun t : CoreState => t.level) h) (by decide), rfl, rfl, rfl, rfl, rfl, rfl, rfl,
    by decide⟩⟩

theorem witness_FirstStepsAfterInit :
    ∃ valid cfg fail s t, initWith valid cfg fail s = .next t ∧ t.life = .active :=
  ⟨validIds, cfg5, 0b000#3, off.core, active.core, rfl, by decide⟩

theorem witness_EveryStepKeepsInvariant :
    (∃ valid i c d, MachineInv c ∧ coreStep valid i c = .next d) ∧ ∃ s t, MachineInv (State.core s) ∧ step s = .next t :=
  ⟨⟨validIds, .smexec, _, _, inv_inPass, rfl⟩,
   ⟨{ inPass 5#32 4#32 .increase with trace := [encode .smexec] }, _,
    by constructor <;> (try unfold LevelInRange) <;> decide, rfl⟩⟩

theorem witness_LevelNeverLeavesRange :
    (∃ s t, LevelInRange (State.core s) ∧ step s = .next t) ∧ (∃ s t, exec .smexec s = .next t) ∧ ∃ s t, exec .sinc s = .next t :=
  ⟨⟨(inPass 5#32 4#32 .increase).withFetchWord 8 0x40, _, fun _ => by decide, rfl⟩,
   ⟨inPass 5#32 4#32 .increase, _, rfl⟩, ⟨atLevel 4#32, _, rfl⟩⟩

theorem witness_RegisterWriters :
    (∃ i s t, exec i s = .next t ∧ t.dclkA ≠ s.dclkA ∧ t.event ≠ s.event) ∧
    (∃ i s t, exec i s = .next t ∧ portOpOf i = none ∧ t.level ≠ s.level) :=
  ⟨⟨.edgeA, quiet, post .edgeA quiet, rfl, by decide, by decide⟩,
   ⟨.smexec, inPass 5#32 4#32 .increase, post .smexec (inPass 5#32 4#32 .increase), rfl, by decide, by decide⟩⟩

/-- An INIT that is not refused completes, whatever LINE_VALID is (R222). -/
theorem init_completes : ∃ t, exec (.init cfg5 0b101#3) off = .next t := by
  obtain ⟨d, h⟩ : ∃ d, initWith Config.lineValid cfg5 0b101#3 off.core = .next d := by
    rw [initWith, guardStep_of_enabled (by decide)]
    unfold initBody
    rw [if_neg (by decide), if_neg (by decide)]
    split <;> exact ⟨_, rfl⟩
  exact ⟨_, onCore_of_next h⟩

theorem witness_AgentFrames :
    (∃ i s t, exec i s = .next t ∧ contextOf (agentOf i) = .interrupt) ∧
    (∃ i s t, exec i s = .next t ∧ agentOf i = .sm) ∧ (∃ i s t, exec i s = .next t ∧ agentOf i = .pwm) ∧
    (∃ i s t, exec i s = .next t ∧ agentOf i = .storePort) ∧
    (∃ i s t, exec i s = .next t ∧ agentOf i = .host ∧ ∀ cfg fail, i ≠ Instr.init cfg fail) ∧
    (∃ i cfg fail s t, exec i s = .next t ∧ agentOf i = .host ∧ i = Instr.init cfg fail) :=
  ⟨⟨.edgeB, quiet, _, rfl, by decide⟩, ⟨.smexec, inPass 5#32 4#32 .increase, _, rfl, by decide⟩,
   ⟨.pwm, atLevel 2#32, _, rfl, by decide⟩, ⟨.sinc, atLevel 2#32, _, rfl, by decide⟩,
   ⟨.tdbegin, active, _, rfl, by decide, by intros; exact Instr.noConfusion⟩,
   let ⟨t, h⟩ := init_completes; ⟨.init cfg5 0b101#3, cfg5, 0b101#3, off, t, h, by decide, rfl⟩⟩

theorem witness_TdendEndsRun : ∃ s t, MachineInv (State.core s) ∧ exec .tdend s = .next t := ⟨draining, _, inv_draining, rfl⟩

/-- The state of the core that a step leaves, or the state before. -/
def coreNext (i : Instr) (c : CoreState) : CoreState :=
  match coreStep validIds i c with
  | .next d => d
  | _ => c

/-- A handler with a submission due and a pass in flight; then nothing but time. -/
def fairStart : CoreState := State.core { draining with isrA := true, smPhase := true }

/-- SIGNAL A, SMEXEC, then TICK 0 for ever. -/
def fairAct : Nat → Instr
  | 0 => .signalA
  | 1 => .smexec
  | _ + 2 => .tick 0#64

/-- The states of that run. -/
def fairState : Nat → CoreState
  | 0 => fairStart
  | 1 => coreNext .signalA fairStart
  | _ + 2 => coreNext .smexec (coreNext .signalA fairStart)

theorem fairState_run : IsRun validIds fairState fairAct
  | 0 => rfl
  | 1 => rfl
  | _ + 2 => rfl

/-- A step that is disabled from the third state on is treated fairly. -/
theorem fair_of_disabled {i : Instr} (h : enabled i (fairState 2) = false) : WeaklyFairTo i fairState fairAct := by
  rintro ⟨n, hn⟩
  have := hn (n + 2) (by omega)
  rw [show fairState (n + 2) = fairState 2 from rfl, h] at this
  cases this

/-- SMSTART, SMEXEC, then PWM for ever, from an active state with a pass pending. -/
def busyAct : Nat → Instr
  | 0 => .smstart
  | 1 => .smexec
  | _ + 2 => .pwm

/-- The states of that run. -/
def busyState : Nat → CoreState
  | 0 => State.core { active with smPend := true }
  | n + 1 => coreNext (busyAct n) (busyState n)

/-- PWM at level 0, where it is enabled, drives the output LOW. -/
theorem pwm_at_zero {c : CoreState} (h1 : c.life = .active) (h2 : c.pwmRun = true) (h3 : c.cancel = false)
    (h4 : c.level = 0#32) : coreStep validIds .pwm c = .next (driveOut false c) :=
  (guardStep_of_enabled (by simp [pwmEnabled, h1, h2, h3])).trans (by simp [pwmIteration, storeRead, h4])

/-- What each of its states has from the third on. -/
theorem busyState_quiet : ∀ n, (busyState (n + 2)).life = .active ∧ (busyState (n + 2)).pwmRun = true ∧
    (busyState (n + 2)).cancel = false ∧ (busyState (n + 2)).level = 0#32 ∧ (busyState (n + 2)).isrA = false ∧
    (busyState (n + 2)).isrB = false ∧ (busyState (n + 2)).smPend = false ∧ (busyState (n + 2)).smPhase = false
  | 0 => by decide
  | n + 1 => by
    obtain ⟨h1, h2, h3, h4, h5⟩ := busyState_quiet n
    have hs : busyState (n + 2 + 1) = driveOut false (busyState (n + 2)) := by
      show coreNext .pwm (busyState (n + 2)) = _
      rw [coreNext, pwm_at_zero h1 h2 h3 h4]
    rw [show n + 1 + 2 = n + 2 + 1 from rfl, hs]
    exact ⟨h1, h2, h3, h4, h5⟩

theorem busyState_run : IsRun validIds busyState busyAct
  | 0 => rfl
  | 1 => rfl
  | n + 2 => by
    obtain ⟨h1, h2, h3, h4, -⟩ := busyState_quiet n
    show coreStep validIds .pwm (busyState (n + 2)) = .next (coreNext .pwm (busyState (n + 2)))
    rw [coreNext, pwm_at_zero h1 h2 h3 h4]

/-- Both runs: one with a handler due and a pass in flight, one that stays active with a pass pending. -/
theorem witness_FairRunsFinishWork :
    (FairRun validIds fairState fairAct ∧ (fairState 0).isr .a = true ∧ (fairState 0).smPhase = true) ∧
    (FairRun validIds busyState busyAct ∧ (busyState 0).smPend = true ∧ (∀ m, 0 ≤ m → (busyState m).life = .active) ∧
      pwmEnabled (busyState 0) = true ∧ ∀ m, 0 ≤ m → busyAct m ≠ .tdbegin) := by
  refine ⟨⟨⟨fairState_run, fair_of_disabled (by decide), fair_of_disabled (by decide), fair_of_disabled (by decide),
    fair_of_disabled (by decide), fair_of_disabled (by decide)⟩, by decide, by decide⟩, ⟨busyState_run, ?_, ?_, ?_, ?_, ?_⟩,
    by decide, ?_, by decide, ?_⟩
  · rintro ⟨n, hn⟩
    have := hn (n + 2) (by omega)
    simp [enabled, signalEnabled, CoreState.isr, busyState_quiet n] at this
  · rintro ⟨n, hn⟩
    have := hn (n + 2) (by omega)
    simp [enabled, signalEnabled, CoreState.isr, busyState_quiet n] at this
  · rintro ⟨n, hn⟩
    have := hn (n + 2) (by omega)
    simp [enabled, smstartEnabled, busyState_quiet n] at this
  · rintro ⟨n, hn⟩
    have := hn (n + 2) (by omega)
    simp [enabled, smexecEnabled, busyState_quiet n] at this
  · exact fun _ k => ⟨k + 2, by omega, rfl⟩
  · rintro (_ | _ | m) -
    · decide
    · decide
    · exact (busyState_quiet m).1
  · rintro (_ | _ | m) - <;> exact Instr.noConfusion

/-- A line of a trace, a run of a trace to its end, and a sequence of steps with its trace. -/
theorem witness_MachineRunsCoreRelation :
    (∃ s ln rest, s.refusal = none ∧ State.trace s = ln :: rest ∧ decode ln = .ok .sread) ∧
    (∃ s ln rest t, s.refusal = none ∧ State.trace s = ln :: rest ∧ decode ln = .ok .pwm ∧ step s = .next t) ∧
    (∃ n s u, runLines n s = (u, .ended) ∧ u.output ≠ s.output) ∧
    (∃ is s d, is ≠ [] ∧ s.refusal = none ∧ coreSteps Config.lineValid is (State.core s) = .next d) :=
  ⟨⟨active.pushLine (bareLine 0x60#8), bareLine 0x60#8, [], by decide, by decide, by decide⟩,
   ⟨active.pushLine (bareLine 0x50#8), bareLine 0x50#8, [], _, by decide, by decide, by decide, rfl⟩,
   ⟨2, active.pushLine (bareLine 0x50#8), (runLines 2 (active.pushLine (bareLine 0x50#8))).1, rfl, by decide⟩,
   ⟨[.smexec, .pwm], inPass 5#32 4#32 .increase, _, by decide, by decide, rfl⟩⟩

end Sys2Proof.Tests
end

section
/-! The invariant of the machine: each step keeps it (O52). -/

namespace Sys2Proof.Machine

/-! ### The guards, as the `enabled:` lines of the rules read -/

theorem edgeEnabled_iff {x : Line} {c : CoreState} :
    edgeEnabled x c = true ↔ c.life = .active ∧ c.irq x = true ∧ c.isr x = false := by
  simp [edgeEnabled, and_assoc]

theorem smstartEnabled_iff {c : CoreState} :
    smstartEnabled c = true ↔ c.life = .active ∧ c.smPend = true ∧ c.smPhase = false := by
  simp [smstartEnabled, and_assoc]

theorem pwmEnabled_iff {c : CoreState} :
    pwmEnabled c = true ↔ c.life = .active ∧ c.pwmRun = true ∧ c.cancel = false := by
  simp [pwmEnabled, and_assoc]

theorem initEnabled_iff {c : CoreState} : initEnabled c = true ↔ c.life = .off := by simp [initEnabled]

theorem tdbeginEnabled_iff {c : CoreState} :
    tdbeginEnabled c = true ↔ c.life = .active ∧ c.isrA = false ∧ c.isrB = false := by
  simp [tdbeginEnabled, and_assoc]

theorem tdendEnabled_iff {c : CoreState} : tdendEnabled c = true ↔ c.life = .draining ∧ c.smPhase = false := by
  simp [tdendEnabled]

/-! ### The relation's steps, seen from the machine -/

theorem coreStep_of_not_portOp {i : Instr} (h : portOpOf i = none) (valid : Nat → Bool) (c : CoreState) :
    coreStep valid i c = coreExec valid i c := by simp [coreStep, h]

theorem coreStep_of_portOp {i : Instr} {op : PortOp} (h : portOpOf i = some op) (valid : Nat → Bool) (c : CoreState) :
    coreStep valid i c = .fault .notEnabled := by simp [coreStep, h]

/-- A step of the machine is a step of the relation on the core's state. -/
theorem step_next_core {s t : State} (h : step s = .next t) :
    ∃ i, coreStep Config.lineValid i s.core = .next t.core := by
  obtain ⟨-, ln, rest, i, -, -, hp, hx⟩ := step_next h
  rw [exec_onCore] at hx
  exact ⟨i, (coreStep_of_not_portOp hp ..).trans (onCore_next hx).1⟩

/-! ### Consequences of the invariant -/

theorem MachineInv.life_ne_off_of_smPhase {c : CoreState} (h : MachineInv c) (hp : c.smPhase = true) :
    c.life ≠ .off := by
  intro hoff
  obtain ⟨-, -, -, -, -, hph, -⟩ := h.offQuiet hoff
  simp [hp] at hph

theorem MachineInv.active_of_isr {c : CoreState} {x : Line} (h : MachineInv c) (hi : c.isr x = true) :
    c.life = .active := by
  cases hl : c.life with
  | active => rfl
  | off =>
    obtain ⟨-, -, hA, hB, -⟩ := h.offQuiet hl
    cases x <;> simp_all [CoreState.isr]
  | draining =>
    obtain ⟨-, -, hA, hB, -⟩ := h.drainingQuiet hl
    cases x <;> simp_all [CoreState.isr]

/-- While LIFE is Active the invariant leaves the handlers' registers, the request and the pass free. -/
theorem MachineInv.of_active_write {c : CoreState} (h : MachineInv c) (hl : c.life = .active) {dclkA dclkB : Time}
    {event : Event} {isrA isrB smPend smPhase : Bool} :
    MachineInv { c with dclkA := dclkA, dclkB := dclkB, event := event, isrA := isrA, isrB := isrB, smPend := smPend,
                        smPhase := smPhase } where
  levelInRange := h.levelInRange
  maxlBound := h.maxlBound
  satCached := h.satCached
  offQuiet hoff := by simp [hl] at hoff
  activeRuns := h.activeRuns
  drainingQuiet hdr := by simp [hl] at hdr

/-- What a step that reaches neither the level, S, MAXL nor a control register leaves true. -/
theorem MachineInv.of_data_write {c : CoreState} (h : MachineInv c) {pclk time : Time} {out : Bool} {err : ErrCode}
    {output : List OutRec} {errors : List ErrCode} :
    MachineInv { c with pclk := pclk, time := time, out := out, err := err, output := output, startupErrors := errors } where
  levelInRange := h.levelInRange
  maxlBound := h.maxlBound
  satCached := h.satCached
  offQuiet := h.offQuiet
  activeRuns := h.activeRuns
  drainingQuiet := h.drainingQuiet

/-! ### Each step keeps the invariant -/

theorem edge_keeps_inv {x : Line} {c d : CoreState} (h : MachineInv c) (hx : edge x c = .next d) : MachineInv d := by
  obtain ⟨he, ⟨-, rfl⟩ | ⟨-, rfl⟩⟩ := edge_next hx
  · obtain ⟨hl, -, -⟩ := edgeEnabled_iff.mp he
    cases x <;> exact h.of_active_write hl
  · exact h

theorem signal_keeps_inv {x : Line} {c d : CoreState} (h : MachineInv c) (hx : signal x c = .next d) :
    MachineInv d := by
  obtain ⟨hi, rfl⟩ := signal_next hx
  have hl := h.active_of_isr hi
  cases x <;> exact h.of_active_write hl

theorem smstart_keeps_inv {c d : CoreState} (h : MachineInv c) (hx : smstart c = .next d) : MachineInv d := by
  obtain ⟨he, rfl⟩ := smstart_next hx
  obtain ⟨hl, -, -⟩ := smstartEnabled_iff.mp he
  exact h.of_active_write hl

theorem smexec_keeps_inv {c d : CoreState} (h : MachineInv c) (hx : smexec c = .next d) : MachineInv d := by
  obtain ⟨hp, l, -, hle, rfl⟩ := smexec_next hx
  exact {
    levelInRange := fun _ => hle
    maxlBound := h.maxlBound
    satCached := rfl
    offQuiet := fun hoff => absurd hoff (h.life_ne_off_of_smPhase hp)
    activeRuns := h.activeRuns
    drainingQuiet := h.drainingQuiet }

theorem pwmStep_keeps_inv {c d : CoreState} (h : MachineInv c) (hx : pwmStep c = .next d) : MachineInv d := by
  obtain ⟨-, hit⟩ := pwm_next hx
  obtain ⟨-, rfl⟩ | ⟨-, -, rfl⟩ | ⟨-, -, -, rfl⟩ | ⟨-, -, -, rfl⟩ := pwmIteration_next hit
  · exact h.of_data_write
  · exact h.of_data_write
  · exact h.of_data_write
  · exact h

theorem tick_keeps_inv {t : Time} {c d : CoreState} (h : MachineInv c) (hx : tick t c = .next d) : MachineInv d := by
  cases hx
  exact h.of_data_write

/-- MAXL is the clamp of a signed 32-bit value (R13, R50). -/
theorem clampMaxLevel_toNat_lt (m : BitVec 32) : (clampMaxLevel m).toNat < 2 ^ 31 := by
  have hm : m.toInt < 2 ^ 31 := by simpa using BitVec.toInt_lt (x := m)
  have h0 : (0 : Int) ≤ max 0 m.toInt := le_max_left ..
  have h1 : max 0 m.toInt < 2 ^ 31 := max_lt (by decide) hm
  simp only [clampMaxLevel, BitVec.toNat_ofInt]
  omega

theorem initState_inv (cfg : Cfg) (c : CoreState) : MachineInv (initState cfg c) where
  levelInRange _ := BitVec.le_def.mpr (Nat.zero_le _)
  maxlBound := clampMaxLevel_toNat_lt _
  satCached := rfl
  offQuiet h := by cases h
  activeRuns _ := ⟨rfl, rfl, rfl, rfl, rfl, rfl, rfl⟩
  drainingQuiet h := by cases h

theorem initWith_keeps_inv {valid : Nat → Bool} {cfg : Cfg} {fail : BitVec 3} {c d : CoreState} (h : MachineInv c)
    (hx : initWith valid cfg fail c = .next d) : MachineInv d := by
  obtain ⟨-, -, -, ⟨-, -, -, rfl⟩ | ⟨e, -, rfl⟩⟩ := init_next hx
  · exact initState_inv cfg c
  · exact h.of_data_write

theorem tdbegin_keeps_inv {c d : CoreState} (h : MachineInv c) (hx : tdbegin c = .next d) : MachineInv d := by
  obtain ⟨he, rfl⟩ := tdbegin_next hx
  obtain ⟨hl, hA, hB⟩ := tdbeginEnabled_iff.mp he
  obtain ⟨-, -, -, -, hinc, hdec, hout⟩ := h.activeRuns hl
  exact {
    levelInRange := fun _ => h.levelInRange (by simp [hl])
    maxlBound := h.maxlBound
    satCached := h.satCached
    offQuiet := fun ho => by cases ho
    activeRuns := fun ha => by cases ha
    drainingQuiet := fun _ => ⟨rfl, rfl, hA, hB, rfl, rfl, rfl, hinc, hdec, hout⟩ }

theorem tdend_keeps_inv {c d : CoreState} (h : MachineInv c) (hx : tdend c = .next d) : MachineInv d := by
  obtain ⟨he, rfl⟩ := tdend_next hx
  obtain ⟨hl, hph⟩ := tdendEnabled_iff.mp he
  obtain ⟨hirqA, hirqB, hA, hB, hpend, hrun, -⟩ := h.drainingQuiet hl
  exact {
    levelInRange := fun hn => absurd rfl hn
    maxlBound := h.maxlBound
    satCached := h.satCached
    offQuiet := fun _ => ⟨hirqA, hirqB, hA, hB, hpend, hph, hrun, rfl, rfl, rfl⟩
    activeRuns := fun ha => by cases ha
    drainingQuiet := fun hd => by cases hd }

theorem coreStep_keeps_inv {valid : Nat → Bool} {i : Instr} {c d : CoreState} (h : MachineInv c)
    (hx : coreStep valid i c = .next d) : MachineInv d := by
  cases i with
  | edgeA => exact edge_keeps_inv (x := .a) h hx
  | edgeB => exact edge_keeps_inv (x := .b) h hx
  | signalA => exact signal_keeps_inv (x := .a) h hx
  | signalB => exact signal_keeps_inv (x := .b) h hx
  | smstart => exact smstart_keeps_inv h hx
  | smexec => exact smexec_keeps_inv h hx
  | pwm => exact pwmStep_keeps_inv h hx
  | sread => cases hx
  | sinc => cases hx
  | sdec => cases hx
  | tick t => exact tick_keeps_inv h hx
  | init cfg fail => exact initWith_keeps_inv h hx
  | tdbegin => exact tdbegin_keeps_inv h hx
  | tdend => exact tdend_keeps_inv h hx

/-- Settles O52: each step of the relation keeps the invariant, and a step of the machine is one of them. -/
theorem everyStepKeepsInvariant : Obligations.EveryStepKeepsInvariant := by
  unfold Obligations.EveryStepKeepsInvariant
  refine ⟨fun _ _ _ _ => coreStep_keeps_inv, fun s t h hx => ?_⟩
  obtain ⟨i, hi⟩ := step_next_core hx
  exact coreStep_keeps_inv h hi

end Sys2Proof.Machine
end

section
/-! Guards: where a step has no move, where it completes, and what is refused (O7, O8). -/

namespace Sys2Proof.Machine

/-! ### How the bodies of the steps end -/

theorem guardStep_eq_notEnabled_iff {e : Bool} {b : CoreResult} (hb : b ≠ .fault .notEnabled) :
    guardStep e b = .fault .notEnabled ↔ e = false := by
  cases e
  · simp [guardStep]
  · simpa [guardStep] using hb

/-- How what reads or writes the level ends: with a next state, or with the fault of the assertion that R33 and R174 allow
(log entry 11); never without a move and never refused. -/
def NextOrInvariantViolated (r : CoreResult) : Prop := (∃ d, r = .next d) ∨ r = .fault .invariantViolated

theorem NextOrInvariantViolated.ne_notEnabled {r : CoreResult} (h : NextOrInvariantViolated r) :
    r ≠ .fault .notEnabled := by
  rintro rfl
  obtain ⟨_, hd⟩ | hf := h
  · cases hd
  · cases hf

theorem NextOrInvariantViolated.ne_refused {x : CoreResult} (h : NextOrInvariantViolated x) (r : Refusal) :
    x ≠ .refused r := by
  rintro rfl
  obtain ⟨_, hd⟩ | hf := h
  · cases hd
  · cases hf

theorem NextOrInvariantViolated.andThen {r : CoreResult} {f : CoreState → CoreResult} (h : NextOrInvariantViolated r)
    (hf : ∀ c, NextOrInvariantViolated (f c)) : NextOrInvariantViolated (andThen r f) := by
  obtain ⟨d, rfl⟩ | rfl := h
  · exact hf d
  · exact .inr rfl

theorem storeInc_ends (c : CoreState) : NextOrInvariantViolated (storeInc c) := by
  unfold storeInc
  split
  · exact .inl ⟨_, rfl⟩
  · exact .inr rfl

theorem storeDec_ends (c : CoreState) : NextOrInvariantViolated (storeDec c) := by
  unfold storeDec
  split
  · exact .inr rfl
  · exact .inl ⟨_, rfl⟩

theorem applyAction_ends (a : Action) (c : CoreState) : NextOrInvariantViolated (applyAction a c) := by
  cases a with
  | noop => exact .inl ⟨c, rfl⟩
  | increment => exact storeInc_ends c
  | decrement => exact storeDec_ends c

theorem finishPass_ends (c : CoreState) : NextOrInvariantViolated (finishPass c) := by
  unfold finishPass recordPass
  split
  · exact .inl ⟨_, rfl⟩
  · exact .inr rfl

theorem smexecBody_ends (c : CoreState) :
    NextOrInvariantViolated (andThen (applyAction (passAction c) c) finishPass) :=
  (applyAction_ends _ c).andThen finishPass_ends

theorem pwmIteration_of_le {l : Level} {c : CoreState} (h : l ≤ c.maxl) : ∃ d, pwmIteration l c = .next d := by
  unfold pwmIteration
  split
  · exact ⟨_, rfl⟩
  split
  · exact ⟨_, rfl⟩
  split
  · exact ⟨_, rfl⟩
  · bv_omega

theorem pwmIteration_ends (l : Level) (c : CoreState) : NextOrInvariantViolated (pwmIteration l c) := by
  by_cases h : l ≤ c.maxl
  · exact .inl (pwmIteration_of_le h)
  · have hm : l ≠ c.maxl := fun e => h (e ▸ BitVec.le_refl l)
    have h0 : l ≠ 0#32 := fun e => h (e ▸ BitVec.le_def.mpr (Nat.zero_le _))
    have hlt : ¬ l < c.maxl := fun hlt => h (BitVec.le_of_lt hlt)
    exact .inr (by simp [pwmIteration, h0, hm, hlt])

/-- An INIT with well-formed operands completes, if only with a startup error (R222, R225). -/
theorem initBody_of_wf {cfg : Cfg} {fail : BitVec 3} (h : (Instr.init cfg fail).wf = true) (valid : Nat → Bool)
    (c : CoreState) : ∃ d, initBody valid cfg fail c = .next d := by
  obtain ⟨hd, hf⟩ : cfg.distinctLines = true ∧ failDefined fail = true := by simpa [Instr.wf] using h
  simp only [initBody, hd, hf, Bool.not_true, Bool.false_eq_true, if_false]
  split
  · exact ⟨_, rfl⟩
  split
  · exact ⟨_, rfl⟩
  split <;> exact ⟨_, rfl⟩

/-- One of INIT's first two checks refuses ill-formed operands (R105, R224). -/
theorem initBody_of_not_wf {cfg : Cfg} {fail : BitVec 3} (h : (Instr.init cfg fail).wf = false) (valid : Nat → Bool)
    (c : CoreState) : ∃ r, initBody valid cfg fail c = .refused r := by
  unfold initBody
  split
  · exact ⟨_, rfl⟩
  split
  · exact ⟨_, rfl⟩
  simp_all [Instr.wf]

theorem initBody_ne_notEnabled (valid : Nat → Bool) (cfg : Cfg) (fail : BitVec 3) (c : CoreState) :
    initBody valid cfg fail c ≠ .fault .notEnabled := by
  cases h : (Instr.init cfg fail).wf
  · obtain ⟨r, hr⟩ := initBody_of_not_wf h valid c
    simp [hr]
  · obtain ⟨d, hd⟩ := initBody_of_wf h valid c
    simp [hd]

/-! ### No move exactly outside the guard (R18) -/

theorem coreExec_notEnabled_iff {i : Instr} (hi : portOpOf i = none) (valid : Nat → Bool) (c : CoreState) :
    coreExec valid i c = .fault .notEnabled ↔ enabled i c = false := by
  cases i with
  | edgeA => exact guardStep_eq_notEnabled_iff (by simp)
  | edgeB => exact guardStep_eq_notEnabled_iff (by simp)
  | signalA => exact guardStep_eq_notEnabled_iff (by simp)
  | signalB => exact guardStep_eq_notEnabled_iff (by simp)
  | smstart => exact guardStep_eq_notEnabled_iff (by simp)
  | smexec => exact guardStep_eq_notEnabled_iff (smexecBody_ends c).ne_notEnabled
  | pwm => exact guardStep_eq_notEnabled_iff (pwmIteration_ends _ c).ne_notEnabled
  | sread => cases hi
  | sinc => cases hi
  | sdec => cases hi
  | tick d => simp [coreExec, tick, enabled]
  | init cfg fail => exact guardStep_eq_notEnabled_iff (initBody_ne_notEnabled valid cfg fail c)
  | tdbegin => exact guardStep_eq_notEnabled_iff (by simp)
  | tdend => exact guardStep_eq_notEnabled_iff (by simp)

theorem exec_notEnabled_iff {i : Instr} (hi : portOpOf i = none) (s : State) :
    exec i s = .fault .notEnabled ↔ enabled i s.core ≠ true := by
  rw [exec_onCore, onCore_fault, coreExec_notEnabled_iff hi, ne_eq, Bool.not_eq_true]

theorem coreStep_of_disabled {i : Instr} {c : CoreState} (h : enabled i c = false) (valid : Nat → Bool) :
    coreStep valid i c = .fault .notEnabled := by
  cases hp : portOpOf i with
  | some op => exact coreStep_of_portOp hp valid c
  | none => rw [coreStep_of_not_portOp hp, coreExec_notEnabled_iff hp, h]

/-- Settles O7: the rules' `enabled:` lines, each at its step. -/
theorem noMoveOutsideGuard : Obligations.NoMoveOutsideGuard := by
  unfold Obligations.NoMoveOutsideGuard
  intro s
  refine ⟨?edgeA, ?edgeB, ?signalA, ?signalB, ?smstart, ?smexec, ?pwm, fun _ => ⟨rfl, rfl, rfl⟩, ?tick, ?init, ?tdbegin,
    ?tdend⟩
  case edgeA => exact (exec_notEnabled_iff rfl s).trans (not_congr edgeEnabled_iff)
  case edgeB => exact (exec_notEnabled_iff rfl s).trans (not_congr edgeEnabled_iff)
  case signalA => exact (exec_notEnabled_iff rfl s).trans (Bool.not_eq_true _).to_iff
  case signalB => exact (exec_notEnabled_iff rfl s).trans (Bool.not_eq_true _).to_iff
  case smstart => exact (exec_notEnabled_iff rfl s).trans (not_congr smstartEnabled_iff)
  case smexec => exact (exec_notEnabled_iff rfl s).trans (Bool.not_eq_true _).to_iff
  case pwm => exact (exec_notEnabled_iff rfl s).trans (not_congr pwmEnabled_iff)
  case tick => exact fun d => mt (exec_notEnabled_iff rfl s).mp (not_not.mpr rfl)
  case init => exact fun cfg fail => (exec_notEnabled_iff rfl s).trans (not_congr initEnabled_iff)
  case tdbegin => exact (exec_notEnabled_iff rfl s).trans (not_congr tdbeginEnabled_iff)
  case tdend => exact (exec_notEnabled_iff rfl s).trans (not_congr tdendEnabled_iff)

/-! ### Enabled steps complete -/

/-- A pass in flight completes where S agrees with a level in range: the table then never asks for a level outside
(R33, R152). -/
theorem smexec_of_inv {c : CoreState} (h : MachineInv c) (hp : c.smPhase = true) : ∃ d, smexec c = .next d := by
  have hle : c.level ≤ c.maxl := h.levelInRange (h.life_ne_off_of_smPhase hp)
  rw [smexec, guardStep_of_enabled (e := smexecEnabled c) hp, passAction_of_satOf h.satCached hle]
  split
  next hinc =>
    have hlt : c.level < c.maxl := by have := hinc.2; bv_omega
    rw [applyAction, storeInc_of_lt hlt, andThen_of_next]
    exact ⟨_, finishPass_of_le (by simp only; bv_omega)⟩
  split
  next hdec =>
    rw [applyAction, storeDec_of_ne hdec.2, andThen_of_next]
    exact ⟨_, finishPass_of_le (by simp only; have := hdec.2; bv_omega)⟩
  next => exact ⟨_, finishPass_of_le hle⟩

theorem pwmStep_of_inv {c : CoreState} (h : MachineInv c) (he : pwmEnabled c = true) : ∃ d, pwmStep c = .next d := by
  obtain ⟨hl, -, -⟩ := pwmEnabled_iff.mp he
  rw [pwmStep, guardStep_of_enabled he]
  exact pwmIteration_of_le (h.levelInRange (by simp [hl]))

theorem initWith_of_wf {cfg : Cfg} {fail : BitVec 3} {c : CoreState} (hw : (Instr.init cfg fail).wf = true)
    (he : initEnabled c = true) (valid : Nat → Bool) : ∃ d, initWith valid cfg fail c = .next d := by
  rw [initWith, guardStep_of_enabled he]
  exact initBody_of_wf hw valid c

theorem coreExec_of_enabled {i : Instr} {c : CoreState} (h : MachineInv c) (he : enabled i c = true)
    (hw : i.wf = true) (valid : Nat → Bool) : ∃ d, coreExec valid i c = .next d := by
  cases i with
  | edgeA => exact ⟨_, guardStep_of_enabled he⟩
  | edgeB => exact ⟨_, guardStep_of_enabled he⟩
  | signalA => exact ⟨_, guardStep_of_enabled he⟩
  | signalB => exact ⟨_, guardStep_of_enabled he⟩
  | smstart => exact ⟨_, guardStep_of_enabled he⟩
  | smexec => exact smexec_of_inv h he
  | pwm => exact pwmStep_of_inv h he
  | sread => cases he
  | sinc => cases he
  | sdec => cases he
  | tick d => exact ⟨_, rfl⟩
  | init cfg fail => exact initWith_of_wf hw he valid
  | tdbegin => exact ⟨_, guardStep_of_enabled he⟩
  | tdend => exact ⟨_, guardStep_of_enabled he⟩

/-! ### Refusals (R19) -/

theorem guardStep_ne_refused {e : Bool} {b : CoreResult} {r : Refusal} (hb : b ≠ .refused r) :
    guardStep e b ≠ .refused r := fun h => hb (guardStep_refused h).2

theorem coreExec_ne_refused {i : Instr} (hw : i.wf = true) (valid : Nat → Bool) (c : CoreState) (r : Refusal) :
    coreExec valid i c ≠ .refused r := by
  cases i with
  | edgeA => exact guardStep_ne_refused (by simp)
  | edgeB => exact guardStep_ne_refused (by simp)
  | signalA => exact guardStep_ne_refused (by simp)
  | signalB => exact guardStep_ne_refused (by simp)
  | smstart => exact guardStep_ne_refused (by simp)
  | smexec => exact guardStep_ne_refused ((smexecBody_ends c).ne_refused r)
  | pwm => exact guardStep_ne_refused ((pwmIteration_ends _ c).ne_refused r)
  | sread => simp [coreExec, sread]
  | sinc => exact (storeInc_ends c).ne_refused r
  | sdec => exact (storeDec_ends c).ne_refused r
  | tick d => simp [coreExec, tick]
  | init cfg fail =>
    obtain ⟨d, hd⟩ := initBody_of_wf hw valid c
    exact guardStep_ne_refused (by simp [hd])
  | tdbegin => exact guardStep_ne_refused (by simp)
  | tdend => exact guardStep_ne_refused (by simp)

/-- Settles O8: in a state of the invariant the enabled steps complete; the disabled ones have no move; the well-formed
ones are not refused. -/
theorem enabledStepsComplete : Obligations.EnabledStepsComplete := by
  unfold Obligations.EnabledStepsComplete
  refine ⟨fun i s h he hw => ?_, fun valid i c h => coreStep_of_disabled h valid, fun i s r hw => ?_⟩
  · obtain ⟨d, hd⟩ := coreExec_of_enabled h he hw Config.lineValid
    exact ⟨_, (exec_onCore i s).trans (onCore_of_next hd)⟩
  · rw [exec_onCore, ne_eq, onCore_refused]
    exact coreExec_ne_refused hw _ _ r

end Sys2Proof.Machine
end

section
/-! Frames: what each instruction may write, and what that says of agents, registers and the output line (O54, O55,
O36). -/

namespace Sys2Proof.Machine

/-- `c` with the registers that an instruction may write (R58) taken from `d`. -/
def writtenBy (i : Instr) (c d : CoreState) : CoreState :=
  match i with
  | .edgeA => { c with dclkA := d.dclkA, event := d.event, isrA := d.isrA }
  | .edgeB => { c with dclkB := d.dclkB, event := d.event, isrB := d.isrB }
  | .signalA => { c with isrA := d.isrA, smPend := d.smPend }
  | .signalB => { c with isrB := d.isrB, smPend := d.smPend }
  | .smstart => { c with smPend := d.smPend, smPhase := d.smPhase }
  | .smexec => { c with level := d.level, sat := d.sat, smPhase := d.smPhase, output := d.output }
  | .pwm => { c with out := d.out, pclk := d.pclk, output := d.output }
  | .sread => c
  | .sinc => { c with level := d.level }
  | .sdec => { c with level := d.level }
  | .tick _ => { c with time := d.time }
  | .init _ _ => { d with time := c.time, window := c.window, output := c.output, refusal := c.refusal }
  | .tdbegin => { c with irqA := d.irqA, irqB := d.irqB, smPend := d.smPend, cancel := d.cancel, pwmRun := d.pwmRun,
                         life := d.life }
  | .tdend => { c with heldInc := d.heldInc, heldDec := d.heldDec, heldOut := d.heldOut, life := d.life }

theorem pwmStep_frame {c d : CoreState} (h : pwmStep c = .next d) : d = writtenBy .pwm c d := by
  obtain ⟨-, hit⟩ := pwm_next h
  obtain ⟨-, rfl⟩ | ⟨-, -, rfl⟩ | ⟨-, -, -, rfl⟩ | ⟨-, -, -, rfl⟩ := pwmIteration_next hit <;> rfl

theorem initWith_frame {valid : Nat → Bool} {cfg : Cfg} {fail : BitVec 3} {c d : CoreState}
    (h : initWith valid cfg fail c = .next d) : d = writtenBy (.init cfg fail) c d := by
  obtain ⟨-, -, -, ⟨-, -, -, rfl⟩ | ⟨_, -, rfl⟩⟩ := init_next h <;> rfl

/-- An instruction writes only its own registers. -/
theorem coreExec_frame {valid : Nat → Bool} {i : Instr} {c d : CoreState} (h : coreExec valid i c = .next d) :
    d = writtenBy i c d := by
  cases i with
  | edgeA => obtain ⟨-, ⟨-, rfl⟩ | ⟨-, rfl⟩⟩ := edge_next h <;> rfl
  | edgeB => obtain ⟨-, ⟨-, rfl⟩ | ⟨-, rfl⟩⟩ := edge_next h <;> rfl
  | signalA => obtain ⟨-, rfl⟩ := signal_next h; rfl
  | signalB => obtain ⟨-, rfl⟩ := signal_next h; rfl
  | smstart => obtain ⟨-, rfl⟩ := smstart_next h; rfl
  | smexec => obtain ⟨-, _, -, -, rfl⟩ := smexec_next h; rfl
  | pwm => exact pwmStep_frame h
  | sread => cases h; rfl
  | sinc => obtain ⟨-, rfl⟩ := storeInc_next h; rfl
  | sdec => obtain ⟨-, rfl⟩ := storeDec_next h; rfl
  | tick t => cases h; rfl
  | init cfg fail => exact initWith_frame h
  | tdbegin => obtain ⟨-, rfl⟩ := tdbegin_next h; rfl
  | tdend => obtain ⟨-, rfl⟩ := tdend_next h; rfl

theorem exec_frame {i : Instr} {s t : State} (h : exec i s = .next t) :
    ∃ e, t = s.withCore (writtenBy i s.core e) := by
  rw [exec_onCore] at h
  obtain ⟨hc, ht⟩ := onCore_next h
  exact ⟨t.core, by rw [← coreExec_frame hc]; exact ht⟩

/-- No instruction writes the refusal mark: it is set by whoever runs the trace (log entry 13). -/
theorem refusal_of_coreExec {valid : Nat → Bool} {i : Instr} {c d : CoreState} (h : coreExec valid i c = .next d) :
    d.refusal = c.refusal := by
  rw [coreExec_frame h]
  cases i <;> rfl

/-- Settles O55, from the instructions' frames. -/
theorem agentFrames : Obligations.AgentFrames := by
  unfold Obligations.AgentFrames
  intro i s t h
  obtain ⟨e, rfl⟩ := exec_frame h
  refine ⟨fun ha => ?interrupt, fun ha => ?sm, fun ha => ?pwm, fun ha => ?storePort, fun ha => ?host⟩
  case interrupt => cases i <;> cases ha <;> rfl
  case sm => cases i <;> cases ha <;> rfl
  case pwm =>
    cases i with
    | pwm => rfl
    | _ => cases ha
  case storePort => cases i <;> cases ha <;> rfl
  case host =>
    cases i with
    | tick d => exact ⟨rfl, rfl, rfl, rfl, fun _ => rfl, fun _ _ hi => by cases hi⟩
    | init cfg fail => exact ⟨rfl, rfl, rfl, rfl, fun hn => absurd rfl (hn cfg fail), fun _ _ _ => rfl⟩
    | tdbegin => exact ⟨rfl, rfl, rfl, rfl, fun _ => rfl, fun _ _ hi => by cases hi⟩
    | tdend => exact ⟨rfl, rfl, rfl, rfl, fun _ => rfl, fun _ _ hi => by cases hi⟩
    | _ => cases ha

/-- Settles O54, from the instructions' frames. -/
theorem registerWriters : Obligations.RegisterWriters := by
  unfold Obligations.RegisterWriters
  intro i s t h
  obtain ⟨e, rfl⟩ := exec_frame h
  cases i <;> simp [writtenBy, portOpOf]

/-! ### The output line -/

theorem levelFromRecords_append_wr (out : List OutRec) (b : Bool) :
    levelFromRecords (out ++ [.wr b]) = b := by simp [levelFromRecords]

theorem levelFromRecords_append_obs (out : List OutRec) (l : Level) (p : BitVec 8) :
    levelFromRecords (out ++ [.obs l p]) = levelFromRecords out := by simp [levelFromRecords]

theorem lightOut_of_held {c : CoreState} (h : c.heldOut = true) : lightOut c = c.out := if_pos h

/-- OUT shows the last WR record: SMEXEC appends no WR record, PWM writes OUT and its record together, and no other step
but INIT reaches either. -/
theorem levelFromRecords_of_coreExec {valid : Nat → Bool} {i : Instr} {c d : CoreState}
    (hi : ∀ cfg fail, i ≠ .init cfg fail) (hc : levelFromRecords c.output = c.out)
    (hx : coreExec valid i c = .next d) : levelFromRecords d.output = d.out := by
  cases i with
  | smexec =>
    obtain ⟨-, l, -, -, rfl⟩ := smexec_next hx
    exact (levelFromRecords_append_obs ..).trans hc
  | pwm =>
    obtain ⟨-, hit⟩ := pwm_next hx
    obtain ⟨-, rfl⟩ | ⟨-, -, rfl⟩ | ⟨-, -, -, rfl⟩ | ⟨-, -, -, rfl⟩ := pwmIteration_next hit
    · exact levelFromRecords_append_wr ..
    · exact levelFromRecords_append_wr ..
    · exact levelFromRecords_append_wr ..
    · exact hc
  | init cfg fail => exact absurd rfl (hi cfg fail)
  | _ =>
    rw [coreExec_frame hx]
    exact hc

/-- Settles O36: a step other than INIT keeps OUT at the last WR record, and a held line shows OUT. -/
theorem outputLineFollowsRecords : Obligations.OutputLineFollowsRecords := by
  unfold Obligations.OutputLineFollowsRecords
  intro i s t hi hs hx
  rw [exec_onCore] at hx
  have hout := levelFromRecords_of_coreExec hi hs (onCore_next hx).1
  exact ⟨hout, fun hheld => (lightOut_of_held hheld).trans hout.symm⟩

end Sys2Proof.Machine
end

section
/-! Runs of encoded traces and sequences of steps of the relation (O11, O58, O6). -/

namespace Sys2Proof.Machine

/-! ### Encoded lines -/

@[simp] theorem decodeFields_encode (i : Instr) : decodeFields (encode i) = some i := by
  cases i with
  | tick d => simp [decodeFields, encode, bareLine, labelOf, opcOf, subOf, onlySub0]
  | init cfg fail => simp [decodeFields, encode, bareLine, labelOf, opcOf, subOf, onlySub0]
  | _ => rfl

theorem decode_encode (i : Instr) : decode (encode i) = .ok i := decode_ok_iff.mpr (decodeFields_encode i)

/-- An encoded trace holds no reserved label, so it is loaded without a mark. -/
theorem loadTrace_encode (is : List Instr) (s : State) : loadTrace (is.map encode) s = ⟨s.core, is.map encode⟩ := by
  have hfind : (is.map encode).find? (fun ln => !spellsStep ln) = none := by simp [spellsStep]
  simp [loadTrace, hfind]

/-- A step leaves every line after its own where none of them names a port operation first. -/
theorem dropListed_encode {ops : List PortOp} {is : List Instr} (h : ∀ j ∈ is.head?, portOpOf j = none) :
    dropListed ops (is.map encode) = is.map encode := by
  cases is with
  | nil => rfl
  | cons j js => exact dropListed_cons_of_none (listedRest_of_portOpOf_none (decodeFields_encode j) (h j rfl))

/-! ### A step at a known line -/

/-- In an unmarked state a step takes the next line's instruction as the relation does (R92, R108). -/
theorem step_of_trace {s : State} {ln : TraceLine} {rest : List TraceLine} {i : Instr} (hr : s.refusal = none)
    (ht : s.trace = ln :: rest) (hd : decode ln = .ok i) :
    step s = onCore (coreStep Config.lineValid i) (s.advance i rest) := by
  simp [step, hr, nextLine_eq_some.mpr ht, hd, takeInstr_onCore]

theorem step_encode {c : CoreState} (hr : c.refusal = none) (i : Instr) (rest : List TraceLine) :
    step ⟨c, encode i :: rest⟩ = onCore (coreStep Config.lineValid i) ⟨c, dropListed (performs i c) rest⟩ :=
  step_of_trace (s := ⟨c, _⟩) hr rfl (decode_encode i)

/-! ### Sequences of the relation's steps -/

theorem coreSteps_cons {valid : Nat → Bool} {i : Instr} {is : List Instr} {c d : CoreState}
    (h : coreSteps valid (i :: is) c = .next d) :
    ∃ e, coreStep valid i c = .next e ∧ coreSteps valid is e = .next d := andThen_next h

theorem portOpOf_of_coreSteps {valid : Nat → Bool} {is : List Instr} {c d : CoreState}
    (h : coreSteps valid is c = .next d) : ∀ i ∈ is, portOpOf i = none := by
  induction is generalizing c with
  | nil => simp
  | cons i is ih =>
    obtain ⟨e, he, hd⟩ := coreSteps_cons h
    exact List.forall_mem_cons.mpr ⟨(coreStep_next he).1, ih hd⟩

theorem refusal_of_coreSteps {valid : Nat → Bool} {is : List Instr} {c d : CoreState}
    (h : coreSteps valid is c = .next d) : d.refusal = c.refusal := by
  induction is generalizing c with
  | nil => cases h; rfl
  | cons i is ih =>
    obtain ⟨e, he, hd⟩ := coreSteps_cons h
    exact (ih hd).trans (refusal_of_coreExec (coreStep_next he).2)

theorem performs_nodup (i : Instr) (c : CoreState) : (performs i c).Nodup := by
  cases i with
  | smexec => cases h : passAction c <;> simp [performs, h, writesOf]
  | pwm => simp [performs]
  | _ => exact List.nodup_nil

/-- Settles O11: a port operation has no move, so it is in no completed sequence, and a line that names one is stuck. -/
theorem portOperationsAreNotScheduled : Obligations.PortOperationsAreNotScheduled := by
  unfold Obligations.PortOperationsAreNotScheduled
  refine ⟨fun valid i op c h => coreStep_of_portOp h valid c, fun _ _ _ _ => portOpOf_of_coreSteps, ?_, performs_nodup⟩
  intro s ln rest i op hr ht hd hp
  rw [step_of_trace hr ht hd, onCore_fault]
  exact coreStep_of_portOp hp ..

/-! ### Runs -/

theorem runLines_of_next {s t : State} (h : step s = .next t) (n : Nat) : runLines (n + 1) s = runLines n t := by
  simp [runLines, h]

theorem runLines_of_refused {s : State} {r : Refusal} (h : step s = .refused r) (n : Nat) :
    runLines (n + 1) s = (s.markRefused r, .refused r) := by
  simp [runLines, h]

theorem step_of_marked {s : State} {r : Refusal} (h : s.refusal = some r) : step s = .refused r := by
  simp [step, h]

/-- A run that ends took a line at a time, each a step of the relation. -/
theorem coreSteps_of_runLines {n : Nat} {s u : State} (h : runLines n s = (u, .ended)) :
    ∃ is, coreSteps Config.lineValid is s.core = .next u.core := by
  induction n generalizing s with
  | zero => cases h; exact ⟨[], rfl⟩
  | succ n ih =>
    unfold runLines at h
    split at h
    next t ht =>
      obtain ⟨i, hi⟩ := step_next_core ht
      obtain ⟨is, his⟩ := ih h
      exact ⟨i :: is, by rw [coreSteps, hi, andThen_of_next, his]⟩
    next => cases h; exact ⟨[], rfl⟩
    next => cases h
    next => cases h

/-- The lines of a sequence that completes are taken one by one, and leave what follows them in the trace. -/
theorem runLines_encode {is js : List Instr} {c d : CoreState} (hr : c.refusal = none)
    (hjs : ∀ j ∈ js.head?, portOpOf j = none) (h : coreSteps Config.lineValid is c = .next d) (k : Nat) :
    runLines (is.length + k) ⟨c, (is ++ js).map encode⟩ = runLines k ⟨d, js.map encode⟩ := by
  induction is generalizing c with
  | nil => cases h; simp
  | cons i is ih =>
    obtain ⟨e, he, hd⟩ := coreSteps_cons h
    have hhead : ∀ j ∈ (is ++ js).head?, portOpOf j = none := by
      cases is with
      | nil => exact hjs
      | cons j is =>
        intro j' hj'
        cases hj'
        exact portOpOf_of_coreSteps hd j (by simp)
    have hstep : step ⟨c, (i :: is ++ js).map encode⟩ = .next ⟨e, (is ++ js).map encode⟩ := by
      refine (step_encode hr i ((is ++ js).map encode)).trans ?_
      rw [dropListed_encode hhead]
      exact onCore_of_next he
    have hre : e.refusal = none := (refusal_of_coreExec (coreStep_next he).2).trans hr
    rw [List.length_cons, Nat.add_right_comm, runLines_of_next hstep, ih hre hd]

/-- Running the trace of a completed sequence, and what follows it. -/
theorem runTrace_encode {is js : List Instr} {s : State} {d : CoreState} (hr : s.refusal = none)
    (hjs : ∀ j ∈ js.head?, portOpOf j = none) (h : coreSteps Config.lineValid is s.core = .next d) :
    runTrace ((is ++ js).map encode) s = runLines js.length ⟨d, js.map encode⟩ := by
  rw [runTrace, loadTrace_encode, List.length_map, List.length_append, runLines_encode hr hjs h]

/-- Settles O58: exec is the relation beside the trace, and runs of traces and sequences of steps are each other's. -/
theorem machineRunsCoreRelation : Obligations.MachineRunsCoreRelation := by
  unfold Obligations.MachineRunsCoreRelation
  refine ⟨exec_onCore, ?_, fun _ _ _ => coreSteps_of_runLines, ?_⟩
  · intro s ln rest i hr ht hd
    rw [step_of_trace hr ht hd, coreOf_onCore, core_advance]
  · intro is s d hr h
    have hrun := runTrace_encode (js := []) hr (by simp) h
    rw [List.append_nil] at hrun
    exact ⟨_, hrun, rfl⟩

/-! ### Refused runs -/

/-- The identifiers and the fail selector of R105 and R224, read off. -/
theorem init_wf_eq_false {cfg : Cfg} {fail : BitVec 3}
    (h : ¬(cfg.idInc ≠ cfg.idDec ∧ cfg.idInc ≠ cfg.idOut ∧ cfg.idDec ≠ cfg.idOut) ∨ fail = 0b110#3 ∨ fail = 0b111#3) :
    (Instr.init cfg fail).wf = false := by
  rw [← Bool.not_eq_true]
  intro hw
  obtain ⟨⟨⟨h1, h2⟩, h3⟩, h6, h7⟩ := by simpa [Instr.wf, Cfg.distinctLines, failDefined] using hw
  obtain hs | hf | hf := h
  · exact hs ⟨h1, h2, h3⟩
  · exact h6 hf
  · exact h7 hf

/-- With LIFE Off, an ill-formed INIT is refused. -/
theorem coreStep_init_refused {cfg : Cfg} {fail : BitVec 3} {c : CoreState} (hoff : c.life = .off)
    (hw : (Instr.init cfg fail).wf = false) (valid : Nat → Bool) :
    ∃ r, coreStep valid (.init cfg fail) c = .refused r := by
  obtain ⟨r, hr⟩ := initBody_of_not_wf hw valid c
  exact ⟨r, (guardStep_of_enabled (initEnabled_iff.mpr hoff)).trans hr⟩

/-- Settles O6: the run reaches the INIT in t, is refused there, and marks t. -/
theorem refusalMarksTheRun : Obligations.RefusalMarksTheRun := by
  unfold Obligations.RefusalMarksTheRun
  refine ⟨fun n s r h => runLines_of_refused h n, fun n s r h => ?_, ?_⟩
  · have hmark : s.markRefused r = s := by simp [State.markRefused, ← h]
    rw [runLines_of_refused (step_of_marked h), hmark]
  · intro is cfg fail is' s t hr hx hoff hbad
    obtain ⟨hsteps, -⟩ := onCore_next hx
    have hrt : t.refusal = none := (refusal_of_coreSteps hsteps).trans hr
    have hrun := runTrace_encode (js := .init cfg fail :: is') hr (by simp [portOpOf]) hsteps
    obtain ⟨r, hinit⟩ := coreStep_init_refused hoff (init_wf_eq_false hbad) Config.lineValid
    have hstep : step ⟨t.core, (Instr.init cfg fail :: is').map encode⟩ = .refused r :=
      (step_encode hrt _ _).trans (onCore_refused.mpr hinit)
    rw [List.length_cons, runLines_of_refused hstep] at hrun
    refine ⟨_, r, hrun, rfl, ?_⟩
    simp [State.markRefused, ← hrt]

end Sys2Proof.Machine
end

section
/-! State, passes and ports: the power-up state and sat (O50, O51, O21), the window after INIT (O17), a pass (O23) and
the output ports (O37). -/

namespace Sys2Proof.Machine

/-! ### The saturation function (R35) -/

theorem satOf_eq_off_iff {maxl l : Level} : satOf maxl l = .off ↔ l = 0#32 := by
  unfold satOf
  split
  · simp [*]
  split <;> simp_all

theorem satOf_eq_max_iff {maxl l : Level} : satOf maxl l = .max ↔ l ≠ 0#32 ∧ l = maxl := by
  unfold satOf
  split
  · simp [*]
  split <;> simp_all

theorem satOf_eq_on_iff {maxl l : Level} : satOf maxl l = .on ↔ l ≠ 0#32 ∧ l ≠ maxl := by
  unfold satOf
  split
  · simp [*]
  split <;> simp_all

/-- Settles O21: each value of sat, by its own test. -/
theorem saturationFunction : Obligations.SaturationFunction := by
  unfold Obligations.SaturationFunction
  exact ⟨fun _ _ => ⟨satOf_eq_off_iff, satOf_eq_max_iff, satOf_eq_on_iff⟩, satOf_eq_off_iff.mpr rfl⟩

/-! ### Power-up (R58, R282) -/

/-- At power-up every guard but those of TICK and INIT is false (R282). -/
theorem enabled_reset_iff (i : Instr) :
    enabled i State.reset.core = true ↔ (∃ d, i = .tick d) ∨ ∃ cfg fail, i = .init cfg fail := by
  cases i with
  | tick d => exact iff_of_true rfl (.inl ⟨d, rfl⟩)
  | init cfg fail => exact iff_of_true rfl (.inr ⟨cfg, fail, rfl⟩)
  | _ => exact iff_of_false (by decide) (by simp)

/-- Settles O50: the registers' power-up values, then the steps enabled there. -/
theorem resetIsPowerUp : Obligations.ResetIsPowerUp := by
  unfold Obligations.ResetIsPowerUp
  exact ⟨rfl, rfl, rfl, rfl, rfl, rfl, rfl, rfl, rfl, rfl, rfl, rfl, rfl, rfl, rfl, rfl, enabled_reset_iff⟩

/-- Settles O51: LIFE is Off at power-up, so of the lifecycle clauses only Off's says anything. -/
theorem invariantAtReset : Obligations.InvariantAtReset where
  levelInRange h := absurd rfl h
  maxlBound := by decide
  satCached := rfl
  offQuiet _ := ⟨rfl, rfl, rfl, rfl, rfl, rfl, rfl, rfl, rfl, rfl⟩
  activeRuns h := by cases h
  drainingQuiet h := by cases h

/-! ### The debounce window after INIT (R37, R123) -/

/-- WINDOW is a constant (R53). -/
theorem window_of_coreExec {valid : Nat → Bool} {i : Instr} {c d : CoreState} (h : coreExec valid i c = .next d) :
    d.window = c.window := by
  rw [coreExec_frame h]
  cases i <;> rfl

/-- An EDGE writes the debounce clock of its own line, and only on acceptance (R37, R123). -/
theorem dclk_of_edge {x y : Line} {c d : CoreState} (h : edge y c = .next d)
    (hn : ((x == y) && edgeAccepted y c) = false) : d.dclk x = c.dclk x := by
  obtain ⟨-, ⟨ha, rfl⟩ | ⟨-, rfl⟩⟩ := edge_next h
  · have hxy : x ≠ y := by simpa [ha] using hn
    exact (dclk_setIsr _ y x true).trans (dclk_setDclk_other _ y x _ hxy)
  · rfl

/-- Only an accepted edge on x and an INIT write DCLK[x] (R37). -/
theorem dclk_of_coreExec {valid : Nat → Bool} {x : Line} {i : Instr} {c d : CoreState}
    (hn : restartsWindow x i c = false) (h : coreExec valid i c = .next d) : d.dclk x = c.dclk x := by
  cases i with
  | edgeA => exact dclk_of_edge h hn
  | edgeB => exact dclk_of_edge h hn
  | init cfg fail => cases hn
  | _ =>
    rw [coreExec_frame h]
    cases x <;> rfl

theorem noAcceptedEdge_cons {valid : Nat → Bool} {x : Line} {i : Instr} {is : List Instr} {c e : CoreState}
    (h : noAcceptedEdge valid x (i :: is) c = true) (he : coreStep valid i c = .next e) :
    restartsWindow x i c = false ∧ noAcceptedEdge valid x is e = true := by
  simpa [noAcceptedEdge, he] using h

theorem window_of_coreSteps {valid : Nat → Bool} {is : List Instr} {c d : CoreState}
    (h : coreSteps valid is c = .next d) : d.window = c.window := by
  induction is generalizing c with
  | nil => cases h; rfl
  | cons i is ih =>
    obtain ⟨e, he, hd⟩ := coreSteps_cons h
    exact (ih hd).trans (window_of_coreExec (coreStep_next he).2)

theorem dclk_of_coreSteps {valid : Nat → Bool} {x : Line} {is : List Instr} {c d : CoreState}
    (hn : noAcceptedEdge valid x is c = true) (h : coreSteps valid is c = .next d) : d.dclk x = c.dclk x := by
  induction is generalizing c with
  | nil => cases h; rfl
  | cons i is ih =>
    obtain ⟨e, he, hd⟩ := coreSteps_cons h
    obtain ⟨hi, his⟩ := noAcceptedEdge_cons hn he
    exact (ih his hd).trans (dclk_of_coreExec hi (coreStep_next he).2)

theorem coreStep_edgeInstr (valid : Nat → Bool) (x : Line) (c : CoreState) :
    coreStep valid (edgeInstr x) c = edge x c := by cases x <;> rfl

/-- The test of R121 and R123, in natural numbers: less than a window has gone by. -/
theorem edgeAccepted_eq_false_iff {x : Line} {c : CoreState} :
    edgeAccepted x c = false ↔ (c.time.toNat + 2 ^ 64 - (c.dclk x).toNat) % 2 ^ 64 < c.window.toNat := by
  rw [← Bool.not_eq_true, edgeAccepted_iff, BitVec.le_def, BitVec.toNat_sub]
  omega

theorem edge_of_rejected {x : Line} {c : CoreState} (he : edgeEnabled x c = true) (ha : edgeAccepted x c = false) :
    edge x c = .next c := by simp [edge_of_enabled he, ha]

/-- An INIT that leaves LIFE Active is the successful one. -/
theorem initState_of_active {valid : Nat → Bool} {cfg : Cfg} {fail : BitVec 3} {c d : CoreState}
    (h : initWith valid cfg fail c = .next d) (hd : d.life = .active) : d = initState cfg c := by
  obtain ⟨hoff, -, -, ⟨-, -, -, rfl⟩ | ⟨_, -, rfl⟩⟩ := init_next h
  · rfl
  · simp [hoff] at hd

/-- Settles O17: DCLK[x] still holds INIT's time at the edge, which comes within the window. -/
theorem quietWindowAfterInit : Obligations.QuietWindowAfterInit := by
  unfold Obligations.QuietWindowAfterInit
  intro valid cfg fail s s1 hinit hactive
  obtain rfl := initState_of_active hinit hactive
  refine ⟨rfl, rfl, fun x is s2 hquiet hsteps hen hlt => ?_⟩
  have hdclk : s2.dclk x = s.time := (dclk_of_coreSteps hquiet hsteps).trans (by cases x <;> rfl)
  have hwindow : s2.window = s.window := (window_of_coreSteps hsteps).trans rfl
  rw [coreStep_edgeInstr]
  exact edge_of_rejected hen (edgeAccepted_eq_false_iff.mpr (by rwa [hdclk, hwindow]))

/-! ### A pass (R146) -/

/-- A pass whose action takes the level to `l`, in range, records `l`. -/
theorem andThen_finishPass {r : CoreResult} {c : CoreState} {l : Level} (hr : r = .next { c with level := l })
    (hl : l ≤ c.maxl) :
    andThen r finishPass = .next { c.emit (.obs l (pctOf c.maxl l)) with
      level := l, sat := satOf c.maxl l, smPhase := false } := by
  subst hr
  exact finishPass_of_le hl

/-- Where S agrees with a level in range, a pass in flight completes, with the level that E asks for (R140, R146). -/
theorem smexec_of_satOf {c : CoreState} {l : Level} (hp : c.smPhase = true) (hs : c.sat = satOf c.maxl c.level)
    (hle : c.level ≤ c.maxl)
    (hl : l = if c.event = .increase ∧ c.level ≠ c.maxl then c.level + 1#32
      else if c.event = .decrease ∧ c.level ≠ 0#32 then c.level - 1#32 else c.level) :
    smexec c = .next { c.emit (.obs l (pctOf c.maxl l)) with
      level := l, sat := satOf c.maxl l, smPhase := false } := by
  rw [smexec, guardStep_of_enabled (e := smexecEnabled c) hp, passAction_of_satOf hs hle]
  subst hl
  split
  next hinc =>
    obtain ⟨-, hne⟩ := hinc
    exact andThen_finishPass (storeInc_of_lt (by bv_omega)) (by bv_omega)
  split
  next hdec =>
    obtain ⟨-, hne⟩ := hdec
    exact andThen_finishPass (storeDec_of_ne hne) (by bv_omega)
  next => exact andThen_finishPass rfl hle

/-- Settles O23: the pass of the core's relation, beside the trace. -/
theorem smexecRunsPass : Obligations.SmexecRunsPass := by
  unfold Obligations.SmexecRunsPass
  intro s l hp hs hle hl
  rw [exec_onCore]
  exact onCore_of_next (smexec_of_satOf hp hs hle hl)

/-! ### The output ports (R57) -/

theorem pctNat_le {maxl l : Level} (h : l ≤ maxl) : pctNat maxl l ≤ 100 := by
  unfold pctNat
  split
  · omega
  · exact Nat.div_le_of_le_mul ((Nat.mul_le_mul_left 100 h).trans_eq (Nat.mul_comm ..))

/-- The percentage of a level in range fits the record's 8 bits (R147). -/
theorem pctOf_toNat {maxl l : Level} (h : l ≤ maxl) : (pctOf maxl l).toNat = pctNat maxl l := by
  rw [pctOf, BitVec.toNat_ofNat]
  exact Nat.mod_eq_of_lt ((pctNat_le h).trans_lt (by decide))

/-- SMEXEC alone emits an OBS record: any other instruction emits nothing, or one WR record (R147, R194). -/
theorem output_of_coreExec {valid : Nat → Bool} {i : Instr} {c d : CoreState} (hi : i ≠ .smexec)
    (h : coreExec valid i c = .next d) : d.output = c.output ∨ ∃ b, d.output = c.output ++ [.wr b] := by
  cases i with
  | smexec => exact absurd rfl hi
  | pwm =>
    obtain ⟨-, hit⟩ := pwm_next h
    obtain ⟨-, rfl⟩ | ⟨-, -, rfl⟩ | ⟨-, -, -, rfl⟩ | ⟨-, -, -, rfl⟩ := pwmIteration_next hit
    · exact .inr ⟨false, rfl⟩
    · exact .inr ⟨true, rfl⟩
    · exact .inr ⟨!c.out, rfl⟩
    · exact .inl rfl
  | _ =>
    rw [coreExec_frame h]
    exact .inl rfl

theorem obsPort_of_append_obs {c d : CoreState} {l : Level} {p : BitVec 8} (h : d.output = c.output ++ [.obs l p]) :
    obsPort d = some (l, p) := by simp [obsPort, h]

theorem obsPort_of_append_wr {c d : CoreState} {b : Bool} (h : d.output = c.output ++ [.wr b]) :
    obsPort d = obsPort c := by simp [obsPort, h]

theorem obsPort_of_coreExec {valid : Nat → Bool} {i : Instr} {c d : CoreState} (hi : i ≠ .smexec)
    (h : coreExec valid i c = .next d) : obsPort d = obsPort c := by
  obtain ho | ⟨b, ho⟩ := output_of_coreExec hi h
  · simp [obsPort, ho]
  · exact obsPort_of_append_wr ho

/-- After a pass the port obs shows its level and the percentage, exact although it is stored in 8 bits (R147). -/
theorem obsPort_of_smexec {c d : CoreState} (h : smexec c = .next d) :
    ∃ p : BitVec 8, obsPort d = some (d.level, p) ∧ p.toNat = pctNat d.maxl d.level := by
  obtain ⟨-, l, -, hle, rfl⟩ := smexec_next h
  exact ⟨pctOf c.maxl l, obsPort_of_append_obs rfl, pctOf_toNat hle⟩

/-- The codes of the startup errors are those other than 00 (R101). -/
theorem bits_of_ne_ok {e : ErrCode} (h : e ≠ .ok) : e.bits = 0b01#2 ∨ e.bits = 0b10#2 ∨ e.bits = 0b11#2 := by
  cases e with
  | ok => exact absurd rfl h
  | invalidLineIdentifier => exact .inl rfl
  | lineAcquisitionFailed => exact .inr (.inl rfl)
  | interruptRegistrationFailed => exact .inr (.inr rfl)

/-- INIT succeeds with err 00, or leaves LIFE Off with a startup error's code (R222, R251). -/
theorem errPort_of_initWith {valid : Nat → Bool} {cfg : Cfg} {fail : BitVec 3} {c d : CoreState}
    (h : initWith valid cfg fail c = .next d) :
    (d.life = .active ∧ errPort d = 0b00#2) ∨
      (d.life = .off ∧ (errPort d = 0b01#2 ∨ errPort d = 0b10#2 ∨ errPort d = 0b11#2)) := by
  obtain ⟨hoff, -, -, ⟨-, -, -, rfl⟩ | ⟨e, he, rfl⟩⟩ := init_next h
  · exact .inl ⟨rfl, rfl⟩
  · exact .inr ⟨hoff, bits_of_ne_ok he⟩

/-- INIT alone writes ERR (R48). -/
theorem errPort_of_coreExec {valid : Nat → Bool} {i : Instr} {c d : CoreState}
    (hi : ∀ cfg fail, i ≠ .init cfg fail) (h : coreExec valid i c = .next d) : errPort d = errPort c := by
  rw [coreExec_frame h]
  cases i with
  | init cfg fail => exact absurd rfl (hi cfg fail)
  | _ => rfl

/-- Settles O37: light_out, then err after INIT and after other steps, then obs after SMEXEC and after other steps. -/
theorem outputPorts : Obligations.OutputPorts := by
  unfold Obligations.OutputPorts
  refine ⟨fun _ => lightOut_of_held, fun _ _ _ _ _ => errPort_of_initWith, fun i s t hi hx => ?errKept,
    fun s t hx => ?obsShown, fun i s t hi hx => ?obsKept⟩
  all_goals rw [exec_onCore] at hx
  case errKept => exact errPort_of_coreExec hi (onCore_next hx).1
  case obsShown => exact obsPort_of_smexec (onCore_next hx).1
  case obsKept => exact obsPort_of_coreExec hi (onCore_next hx).1

end Sys2Proof.Machine
end

section
/-! A PWM iteration beside a pass, in both orders (O35). -/

namespace Sys2Proof.Machine

/-! ### What a PWM iteration writes (R191 to R196) -/

/-- The value an iteration that reads level `l` writes to OUT, if it writes one (R192, R193, R195). -/
def iterationWrite (c : CoreState) (l : Level) : Option Bool :=
  if l = 0#32 then some false
  else if l = c.maxl then some true
  else if flipDue c l then some (!c.out) else none

/-- The comparator of R195 and R196, in natural numbers. -/
theorem flipDue_iff {c : CoreState} {l : Level} :
    flipDue c l = true ↔ dwell c l ≤ (c.time.toNat + 2 ^ 64 - c.pclk.toNat) % 2 ^ 64 := by
  have hsince : (c.since c.pclk).toNat = (c.time.toNat + 2 ^ 64 - c.pclk.toNat) % 2 ^ 64 := by
    rw [CoreState.since, BitVec.toNat_sub]
    omega
  rw [flipDue, Nat.ble_eq, hsince]

/-- An enabled iteration that reads a level in range completes: OUT takes the value written, if any, with one WR record
for it (R192, R194). -/
theorem pwmStep_of_le {c : CoreState} (hle : c.level ≤ c.maxl) (he : pwmEnabled c = true) :
    ∃ pclk, pwmStep c = .next { c with
      out := (iterationWrite c c.level).getD c.out
      pclk := pclk
      output := c.output ++ (iterationWrite c c.level).toList.map .wr } := by
  obtain ⟨d, hd⟩ := pwmIteration_of_le hle
  have hstep : pwmStep c = .next d := (guardStep_of_enabled he).trans hd
  refine ⟨d.pclk, hstep.trans (congrArg _ ?_)⟩
  obtain ⟨h0, rfl⟩ | ⟨h0, hmax, rfl⟩ | ⟨h0, hlt, hflip, rfl⟩ | ⟨h0, hlt, hflip, rfl⟩ := pwmIteration_next hd
  · simp [iterationWrite, h0, driveOut, CoreState.emit]
  · simp [iterationWrite, hmax, hmax ▸ h0, driveOut, CoreState.emit]
  · simp [iterationWrite, h0, BitVec.ne_of_lt hlt, hflip, flipOut, driveOut, CoreState.emit]
  · simp [iterationWrite, h0, BitVec.ne_of_lt hlt, hflip]

/-! ### Both orders (R78) -/

/-- A pass leaves the level in range (R33, R146). -/
theorem level_le_of_smexec {c d : CoreState} (h : smexec c = .next d) : d.level ≤ d.maxl := by
  obtain ⟨-, l, -, hle, rfl⟩ := smexec_next h
  exact hle

/-- Two steps of the relation, one after the other, taken by the machine. -/
theorem execAll_pair {i j : Instr} {s : State} {d e : CoreState} (hi : coreStep Config.lineValid i s.core = .next d)
    (hj : coreStep Config.lineValid j d = .next e) : execAll [i, j] s = .next (s.withCore e) :=
  onCore_of_next (by simp [coreSteps, hi, hj])

/-- Settles O35: the iteration writes for the level it reads. Of what the pass writes it reads the level alone, and of
what it writes the pass reads nothing. -/
theorem pwmSeesOldOrNewLevel : Obligations.PwmSeesOldOrNewLevel := by
  unfold Obligations.PwmSeesOldOrNewLevel
  intro s drive l pct hlife hrun hcancel hphase hsat hle hdrive hl hpct
  obtain rfl : drive = iterationWrite s.core := by
    funext x
    simp only [iterationWrite, flipDue_iff]
    exact hdrive x
  subst hpct
  have hen : pwmEnabled s.core = true := pwmEnabled_iff.mpr ⟨hlife, hrun, hcancel⟩
  constructor
  · obtain ⟨pclk, hpwm⟩ := pwmStep_of_le hle hen
    exact ⟨_, execAll_pair hpwm (smexec_of_satOf hphase hsat hle hl), rfl, rfl, rfl⟩
  · have hpass := smexec_of_satOf (c := s.core) hphase hsat hle hl
    obtain ⟨pclk, hpwm⟩ := pwmStep_of_le (level_le_of_smexec hpass) hen
    exact ⟨_, execAll_pair hpass hpwm, rfl, rfl, rfl⟩

end Sys2Proof.Machine
end

section
/-! Encoding: the label map and its inverse (O2, O1), the reserved labels (O3) and the bits of the enumerations (O4). -/

namespace Sys2Proof.Machine

/-! ### Labels and operands (R91, R92, R94) -/

/-- The line bears the label of `i`, and beside it the operands of `i`. -/
def SpelledAs (ln : TraceLine) (i : Instr) : Prop :=
  ln.label = labelOf i ∧ (∀ d, i = .tick d → ln.delta = d) ∧
    ∀ cfg fail, i = .init cfg fail → ln.cfg = cfg ∧ ln.fail = fail

/-- The label selects the row of the step map, and the row takes its operands from the line. -/
theorem decodeFields_of_spelledAs {ln : TraceLine} {i : Instr} (h : SpelledAs ln i) : decodeFields ln = some i := by
  obtain ⟨hlabel, hdelta, hinit⟩ := h
  cases i with
  | tick d => simp [decodeFields, hlabel, labelOf, opcOf, subOf, onlySub0, hdelta d rfl]
  | init cfg fail => simp [decodeFields, hlabel, labelOf, opcOf, subOf, onlySub0, hinit cfg fail rfl]
  | _ => simp [decodeFields, hlabel, labelOf, opcOf, subOf, onlySub0, lineOfSub, edgeInstr, signalInstr, storeInstr]

/-- Of the 256 labels, those that spell a step are the listed ones (R92, R104). -/
theorem bareLine_isSome_iff : ∀ l : Label, (decodeFields (bareLine l)).isSome ↔ l ∈ definedLabels := by decide

theorem decodeFields_isSome_iff (ln : TraceLine) : (decodeFields ln).isSome ↔ ln.label ∈ definedLabels := by
  rw [decodeFields_isSome_bare, bareLine_isSome_iff]

theorem decodeFields_eq_none_iff {ln : TraceLine} : decodeFields ln = none ↔ ln.label ∉ definedLabels := by
  rw [← decodeFields_isSome_iff, Option.not_isSome_iff_eq_none]

/-- A listed label spells the step of its row, with the operands the line holds. -/
theorem exists_spelledAs_of_mem {ln : TraceLine} (h : ln.label ∈ definedLabels) : ∃ i, SpelledAs ln i := by
  simp only [definedLabels, List.mem_cons, List.not_mem_nil, or_false] at h
  obtain h | h | h | h | h | h | h | h | h | h | h | h | h | h := h
  · exact ⟨.edgeA, h, nofun, nofun⟩
  · exact ⟨.edgeB, h, nofun, nofun⟩
  · exact ⟨.signalA, h, nofun, nofun⟩
  · exact ⟨.signalB, h, nofun, nofun⟩
  · exact ⟨.smstart, h, nofun, nofun⟩
  · exact ⟨.smexec, h, nofun, nofun⟩
  · exact ⟨.pwm, h, nofun, nofun⟩
  · exact ⟨.sread, h, nofun, nofun⟩
  · exact ⟨.sinc, h, nofun, nofun⟩
  · exact ⟨.sdec, h, nofun, nofun⟩
  · exact ⟨.tick ln.delta, h, fun _ hd => Instr.tick.inj hd, nofun⟩
  · exact ⟨.init ln.cfg ln.fail, h, nofun, fun _ _ hi => Instr.init.inj hi⟩
  · exact ⟨.tdbegin, h, nofun, nofun⟩
  · exact ⟨.tdend, h, nofun, nofun⟩

/-- A line that decodes bears a listed label, so it spells some step; and that is the step it decodes to. -/
theorem decode_ok_iff_spelledAs {ln : TraceLine} {i : Instr} : decode ln = .ok i ↔ SpelledAs ln i := by
  rw [decode_ok_iff]
  refine ⟨fun h => ?_, decodeFields_of_spelledAs⟩
  obtain ⟨j, hj⟩ := exists_spelledAs_of_mem ((decodeFields_isSome_iff ln).mp (by simp [h]))
  obtain rfl : i = j := Option.some.inj (h.symm.trans (decodeFields_of_spelledAs hj))
  exact hj

/-- Settles O2: the encoder's round trip, then the decoder's converse by label and operands. -/
theorem decodeEncodeAgree : Obligations.DecodeEncodeAgree := by
  unfold Obligations.DecodeEncodeAgree
  exact ⟨decode_encode, fun _ _ => decode_ok_iff_spelledAs⟩

/-- Settles O1: each line written out bit by bit is its step's encoding. -/
theorem listedLabelsDecode : Obligations.ListedLabelsDecode := by
  unfold Obligations.ListedLabelsDecode
  exact ⟨decode_encode .edgeA, decode_encode .edgeB, decode_encode .signalA, decode_encode .signalB,
    decode_encode .smstart, decode_encode .smexec, decode_encode .pwm, decode_encode .sread, decode_encode .sinc,
    decode_encode .sdec, fun d => decode_encode (.tick d), fun cfg fail => decode_encode (.init cfg fail),
    decode_encode .tdbegin, decode_encode .tdend⟩

/-! ### Reserved labels (R104) -/

theorem decode_error_iff_reserved {ln : TraceLine} :
    decode ln = .error (.reservedLabel ln.label) ↔ ln.label ∉ definedLabels := by
  rw [decode_error_iff, decodeFields_eq_none_iff, and_iff_left rfl]

theorem step_of_reserved {s : State} {ln : TraceLine} {rest : List TraceLine} (hr : s.refusal = none)
    (ht : s.trace = ln :: rest) (h : ln.label ∉ definedLabels) : step s = .refused (.reservedLabel ln.label) := by
  simp [step, hr, nextLine_eq_some.mpr ht, decode_error_iff_reserved.mpr h, refusalOf]

theorem not_spellsStep_iff {ln : TraceLine} : (!spellsStep ln) = true ↔ ln.label ∉ definedLabels := by
  simp [spellsStep, decodeFields_eq_none_iff]

/-- A trace with a reserved label is loaded with the mark, at the first such label (R108). -/
theorem loadTrace_of_reserved {lines : List TraceLine} {ln : TraceLine} (hln : ln ∈ lines)
    (h : ln.label ∉ definedLabels) (s : State) :
    ∃ l, l ∉ definedLabels ∧ loadTrace lines s = { s with trace := lines, refusal := some (.reservedLabel l) } := by
  have hfind : (lines.find? (fun ln => !spellsStep ln)).isSome :=
    List.find?_isSome.mpr ⟨ln, hln, not_spellsStep_iff.mpr h⟩
  obtain ⟨bad, hbad⟩ := Option.isSome_iff_exists.mp hfind
  have hbadSpells : (!spellsStep bad) = true := List.find?_some (p := fun ln => !spellsStep ln) hbad
  refine ⟨bad.label, not_spellsStep_iff.mp hbadSpells, ?_⟩
  simp [loadTrace, hbad, State.markRefused]

/-- A run from a marked state is refused at once and leaves the state as it is (R19). -/
theorem runLines_of_marked {s : State} {r : Refusal} (h : s.refusal = some r) (n : Nat) :
    runLines (n + 1) s = (s, .refused r) := by
  obtain ⟨-, hmarked, -⟩ := refusalMarksTheRun
  exact hmarked n s r h

/-- Settles O3: the classes and selectors of R104 are a fact about 256 labels; the mark that loading sets refuses the run
at its first step, whatever that line is. -/
theorem reservedLabelsRefused : Obligations.ReservedLabelsRefused := by
  unfold Obligations.ReservedLabelsRefused
  refine ⟨fun _ => decode_error_iff_reserved, by decide, fun _ _ _ => step_of_reserved, fun lines s ln hln h => ?_⟩
  obtain ⟨l, hl, hload⟩ := loadTrace_of_reserved hln h s
  obtain ⟨n, hn⟩ := Nat.exists_eq_succ_of_ne_zero (List.length_pos_of_mem hln).ne'
  exact ⟨l, hl, by rw [runTrace, hload, hn]; exact runLines_of_marked rfl n⟩

/-! ### Bits (R97 to R101) -/

theorem SatState.bits_ne (x : SatState) : x.bits ≠ 0b11#2 := by cases x <;> decide

theorem Event.bits_ne (x : Event) : x.bits ≠ 0b11#2 := by cases x <;> decide

theorem Action.bits_ne (x : Action) : x.bits ≠ 0b11#2 := by cases x <;> decide

theorem Life.bits_ne (x : Life) : x.bits ≠ 0b11#2 := by cases x <;> decide

/-- Settles O4: the values, and for each type without the bits 11 that no constructor has them. -/
theorem enumerationBits : Obligations.EnumerationBits := by
  unfold Obligations.EnumerationBits
  exact ⟨⟨rfl, rfl, rfl, SatState.bits_ne⟩, ⟨rfl, rfl, rfl, Event.bits_ne⟩, ⟨rfl, rfl, rfl, Action.bits_ne⟩,
    ⟨rfl, rfl, rfl, Life.bits_ne⟩, rfl, rfl, rfl, rfl⟩

end Sys2Proof.Machine
end

section
/-! What a line and a trace do: the step at a line (O5), runs of encoded traces (O9), lines that list port operations
(O10), pseudo-steps (O12) and refused operands of INIT (O44). -/

namespace Sys2Proof.Machine

/-! ### The step at a line (R90, R92, R108) -/

theorem trace_of_exec {i : Instr} {s t : State} (h : exec i s = .next t) : t.trace = s.trace := by
  obtain ⟨e, rfl⟩ := exec_frame h
  rfl

/-- What an instruction does is the same beside every trace. -/
theorem exec_beside {i : Instr} {s t : State} (h : exec i s = .next t) (lines : List TraceLine) :
    exec i { s with trace := lines } = .next { t with trace := lines } := by
  rw [exec_onCore] at h ⊢
  exact onCore_of_next (onCore_next h).1

/-- Where the next line names a step, `step` is exec on the state with the lines of that step taken. -/
theorem step_eq_exec {s : State} {ln : TraceLine} {rest : List TraceLine} {i : Instr} (hr : s.refusal = none)
    (ht : s.trace = ln :: rest) (hd : decode ln = .ok i) (hp : portOpOf i = none) :
    step s = exec i (s.advance i rest) := by
  rw [step_of_trace hr ht hd, exec_onCore, funext (coreStep_of_not_portOp hp _)]

/-- Settles O5: the line is taken as a step, or names a port operation and has no move. -/
theorem stepExecutesNextLine : Obligations.StepExecutesNextLine := by
  unfold Obligations.StepExecutesNextLine
  refine ⟨fun s ln rest i hr ht hd => ⟨step_eq_exec hr ht hd, fun hp => ?_⟩, fun _ _ _ => trace_of_exec,
    fun _ _ => step_of_marked⟩
  obtain ⟨op, hop⟩ := Option.ne_none_iff_exists'.mp hp
  rw [step_of_trace hr ht hd, onCore_fault]
  exact coreStep_of_portOp hop ..

/-! ### Runs that end and runs that are stuck (R108) -/

theorem runLines_of_notEnabled {s : State} (h : step s = .fault .notEnabled) (n : Nat) :
    runLines (n + 1) s = (s, .stuck .notEnabled) := by simp [runLines, h]

/-- Settles O9: the run goes through the sequence of the relation's steps, and is stuck at the line after it. -/
theorem traceRunsStepsInOrder : Obligations.TraceRunsStepsInOrder := by
  unfold Obligations.TraceRunsStepsInOrder
  refine ⟨fun is s t hr hx => ?ends, fun is i is' s t hr hx hp hdis => ?stuck⟩
  case ends =>
    obtain ⟨hsteps, -⟩ := onCore_next hx
    have hrun := runTrace_encode (js := []) hr (by simp) hsteps
    rw [List.append_nil] at hrun
    exact ⟨_, hrun, rfl, rfl⟩
  case stuck =>
    obtain ⟨hsteps, -⟩ := onCore_next hx
    have hrt : t.refusal = none := (refusal_of_coreSteps hsteps).trans hr
    have hrun := runTrace_encode (js := i :: is') hr (by simpa using hp) hsteps
    have hstep : step ⟨t.core, (i :: is').map encode⟩ = .fault .notEnabled := by
      refine (step_encode hrt i _).trans (onCore_fault.mpr ?_)
      rw [coreStep_of_not_portOp hp]
      rwa [exec_onCore, onCore_fault] at hdis
    exact ⟨_, hrun.trans (runLines_of_notEnabled hstep _), rfl, rfl⟩

/-! ### Lines that list port operations (R92, R173) -/

/-- An operation that is first among some listed in order is found, and the others can still be listed after it. -/
theorem afterListed_of_cons_sublist {op : PortOp} {ops ps : List PortOp} (h : (op :: ops).Sublist ps) :
    ∃ left, afterListed op ps = some left ∧ ops.Sublist left := by
  induction ps with
  | nil => cases h
  | cons p ps ih =>
    by_cases hp : p = op
    · subst hp
      exact ⟨ps, by simp [afterListed], List.cons_sublist_cons.mp h⟩
    · obtain ⟨left, hleft, hsub⟩ := ih (h.of_cons_of_ne (Ne.symm hp))
      exact ⟨left, by simp [afterListed, hp, hleft], hsub⟩

/-- What may be listed after an operation comes later in the list. -/
theorem sublist_of_afterListed {op : PortOp} {ps left : List PortOp} (h : afterListed op ps = some left) :
    (op :: left).Sublist ps := by
  induction ps with
  | nil => cases h
  | cons p ps ih =>
    unfold afterListed at h
    split at h
    next hp => cases h; exact hp ▸ List.Sublist.refl _
    next => exact (ih h).cons p

@[simp] theorem portOpOf_portInstr (op : PortOp) : portOpOf (portInstr op) = some op := by cases op <;> rfl

theorem eq_portInstr_of_portOpOf {i : Instr} {op : PortOp} (h : portOpOf i = some op) : i = portInstr op := by
  cases i <;> cases h <;> rfl

theorem listedRest_encode (op : PortOp) (ops : List PortOp) :
    listedRest (encode (portInstr op)) ops = afterListed op ops := by simp [listedRest]

/-- A line that lists an operation decodes to that operation's label. -/
theorem listedRest_some {ln : TraceLine} {ops left : List PortOp} (h : listedRest ln ops = some left) :
    ∃ op, decode ln = .ok (portInstr op) ∧ afterListed op ops = some left := by
  unfold listedRest at h
  split at h
  next op hop =>
    obtain ⟨i, hi, hp⟩ := Option.bind_eq_some_iff.mp hop
    obtain rfl := eq_portInstr_of_portOpOf hp
    exact ⟨op, decode_ok_iff.mpr hi, h⟩
  next => cases h

/-- The lines taken list a part of the operations, in order, and the others stay. -/
theorem exists_taken_of_dropListed (ops : List PortOp) (lines : List TraceLine) :
    ∃ listed taken, List.Sublist listed ops ∧
      taken.map decode = listed.map (fun op => .ok (portInstr op)) ∧ lines = taken ++ dropListed ops lines := by
  induction lines generalizing ops with
  | nil => exact ⟨[], [], List.nil_sublist _, rfl, rfl⟩
  | cons ln rest ih =>
    unfold dropListed
    split
    next left hleft =>
      obtain ⟨op, hop, hafter⟩ := listedRest_some hleft
      obtain ⟨listed, taken, hsub, hdecode, hrest⟩ := ih left
      refine ⟨op :: listed, ln :: taken, (hsub.cons_cons op).trans (sublist_of_afterListed hafter), ?_, ?_⟩
      · simp [hop, hdecode]
      · exact congrArg (ln :: ·) hrest
    next => exact ⟨[], [], List.nil_sublist _, rfl, rfl⟩

/-- The lines that list operations in order are all taken, up to a line that names none. -/
theorem dropListed_listed {ops ps : List PortOp} {rest : List TraceLine} (h : ops.Sublist ps)
    (hrest : ∀ ln j, rest.head? = some ln → decode ln = .ok j → portOpOf j = none) :
    dropListed ps (ops.map (fun op => encode (portInstr op)) ++ rest) = rest := by
  induction ops generalizing ps with
  | nil =>
    cases rest with
    | nil => rfl
    | cons ln rest =>
      refine dropListed_cons_of_none (Option.eq_none_iff_forall_ne_some.mpr fun left hleft => ?_)
      obtain ⟨op, hop, -⟩ := listedRest_some hleft
      simpa using hrest ln _ rfl hop
  | cons op ops ih =>
    obtain ⟨left, hleft, hsub⟩ := afterListed_of_cons_sublist h
    simp [dropListed, listedRest_encode, hleft, ih hsub]

/-- Settles O10: what is performed, which following lines a step takes, and the step over a detailed trace. -/
theorem detailedTraceListsStoreWrite : Obligations.DetailedTraceListsStoreWrite := by
  unfold Obligations.DetailedTraceListsStoreWrite
  refine ⟨fun c => ⟨?performed, rfl⟩, exists_taken_of_dropListed, fun i s t ops rest hi hr hops ht hrest hx => ?taken⟩
  case performed => cases h : passAction c <;> simp [performs, writesOf, h]
  case taken =>
    have hp : portOpOf i = none := by obtain rfl | rfl := hi <;> rfl
    rw [step_eq_exec hr ht (decode_encode i) hp, State.advance, dropListed_listed hops hrest]
    exact exec_beside hx rest

/-! ### Pseudo-steps (R109) -/

theorem coreStep_signalInstr (valid : Nat → Bool) (x : Line) (c : CoreState) :
    coreStep valid (signalInstr x) c = signal x c := by cases x <;> rfl

theorem edge_of_accepted {x : Line} {c : CoreState} (he : edgeEnabled x c = true) (ha : edgeAccepted x c = true) :
    edge x c = .next (acceptEdge x c) := by simp [edge_of_enabled he, ha]

theorem isr_acceptEdge (x : Line) (c : CoreState) : (acceptEdge x c).isr x = true := by cases x <;> rfl

theorem pressSteps_of_accepted {x : Line} {c : CoreState} (he : edgeEnabled x c = true)
    (ha : edgeAccepted x c = true) : pressSteps x c = [edgeInstr x, signalInstr x] := by
  simp [pressSteps, edge_of_accepted he ha, isr_acceptEdge]

theorem pressSteps_of_rejected {x : Line} {c : CoreState} (he : edgeEnabled x c = true)
    (ha : edgeAccepted x c = false) : pressSteps x c = [edgeInstr x] := by
  obtain ⟨-, -, hisr⟩ := edgeEnabled_iff.mp he
  simp [pressSteps, edge_of_rejected he ha, hisr]

/-- After the SIGNAL of an accepted edge SM_PEND is 1. -/
theorem coreSteps_press_of_accepted {x : Line} {c : CoreState} (he : edgeEnabled x c = true)
    (ha : edgeAccepted x c = true) (valid : Nat → Bool) :
    coreSteps valid [edgeInstr x, signalInstr x] c =
      .next { (acceptEdge x c).setIsr x false with smPend := true } := by
  simp [coreSteps, coreStep_edgeInstr, edge_of_accepted he ha, coreStep_signalInstr, signal_of_isr (isr_acceptEdge x c)]

/-- A rejected edge leaves SM_PEND, with every other register, as it is (R124). -/
theorem coreSteps_press_of_rejected {x : Line} {c : CoreState} (he : edgeEnabled x c = true)
    (ha : edgeAccepted x c = false) (valid : Nat → Bool) : coreSteps valid [edgeInstr x] c = .next c := by
  simp [coreSteps, coreStep_edgeInstr, edge_of_rejected he ha]

theorem eventSteps_of_accepted {x : Line} {c : CoreState} (he : edgeEnabled x c = true)
    (ha : edgeAccepted x c = true) : eventSteps x c = [edgeInstr x, signalInstr x, .smstart, .smexec] := by
  simp [eventSteps, pressSteps_of_accepted he ha, coreSteps_press_of_accepted he ha, applySteps]

theorem eventSteps_of_rejected {x : Line} {c : CoreState} (he : edgeEnabled x c = true)
    (ha : edgeAccepted x c = false) :
    eventSteps x c = edgeInstr x :: if c.smPend then [.smstart, .smexec] else [] := by
  cases hp : c.smPend <;>
    simp [eventSteps, pressSteps_of_rejected he ha, coreSteps_press_of_rejected he ha, hp, applySteps]

/-- Settles O12: PRESS and EVENT by what EDGE x answers. -/
theorem pseudoStepsExpand : Obligations.PseudoStepsExpand := by
  unfold Obligations.PseudoStepsExpand
  exact ⟨fun _ => rfl, fun _ _ => rfl, fun _ => rfl,
    fun _ _ he ha => ⟨pressSteps_of_accepted he ha, eventSteps_of_accepted he ha⟩,
    fun _ _ he ha => ⟨pressSteps_of_rejected he ha, eventSteps_of_rejected he ha⟩⟩

/-! ### Refused operands of INIT (R105, R222, R224) -/

theorem distinctLines_iff {cfg : Cfg} :
    cfg.distinctLines = true ↔ cfg.idInc ≠ cfg.idDec ∧ cfg.idInc ≠ cfg.idOut ∧ cfg.idDec ≠ cfg.idOut := by
  simp [Cfg.distinctLines, and_assoc]

theorem failDefined_eq_false_iff {fail : BitVec 3} : failDefined fail = false ↔ fail = 0b110#3 ∨ fail = 0b111#3 := by
  simp [failDefined, or_iff_not_imp_left]

theorem initBody_of_not_distinctLines {cfg : Cfg} (h : cfg.distinctLines = false) (valid : Nat → Bool)
    (fail : BitVec 3) (c : CoreState) : initBody valid cfg fail c = .refused .sameLine := by simp [initBody, h]

theorem initBody_of_not_failDefined {cfg : Cfg} {fail : BitVec 3} (hd : cfg.distinctLines = true)
    (hf : failDefined fail = false) (valid : Nat → Bool) (c : CoreState) :
    initBody valid cfg fail c = .refused .reservedFail := by simp [initBody, hd, hf]

/-- With LIFE Off, an INIT is refused where its body is. -/
theorem exec_init_refused {cfg : Cfg} {fail : BitVec 3} {s : State} {r : Refusal} (hoff : s.life = .off)
    (h : initBody Config.lineValid cfg fail s.core = .refused r) : exec (.init cfg fail) s = .refused r := by
  rw [exec_onCore, onCore_refused]
  exact (guardStep_of_enabled (initEnabled_iff.mpr hoff)).trans h

/-- Settles O44: the first check refuses equal identifiers, the second a reserved selector. -/
theorem initRefusals : Obligations.InitRefusals := by
  unfold Obligations.InitRefusals
  refine fun cfg fail s hoff => ⟨fun hsame => exec_init_refused hoff ?_, fun h1 h2 h3 hf => exec_init_refused hoff ?_⟩
  · refine initBody_of_not_distinctLines ?_ ..
    rw [← Bool.not_eq_true, distinctLines_iff]
    tauto
  · exact initBody_of_not_failDefined (distinctLines_iff.mpr ⟨h1, h2, h3⟩) (failDefined_eq_false_iff.mpr hf) ..

end Sys2Proof.Machine
end

section
/-! The Debounce Filter: EDGE and SIGNAL exactly (O13, O14), the two lines apart (O15), a second edge on one line (O16),
the steps after INIT (O49), and edges between passes (O18, O19). -/

namespace Sys2Proof.Machine

/-! ### EDGE and SIGNAL (R123, R126) -/

/-- The test of R121 and R123, in natural numbers: a window or more has gone by. -/
theorem edgeAccepted_iff_elapsed {x : Line} {c : CoreState} :
    edgeAccepted x c = true ↔ c.window.toNat ≤ (c.time.toNat + 2 ^ 64 - (c.dclk x).toNat) % 2 ^ 64 := by
  rw [← Bool.not_eq_false, edgeAccepted_eq_false_iff, not_lt]

theorem exec_edgeInstr_of_enabled {x : Line} {s : State} (he : edgeEnabled x s.core = true) :
    exec (edgeInstr x) s =
      .next (if s.window.toNat ≤ (s.time.toNat + 2 ^ 64 - (s.core.dclk x).toNat) % 2 ^ 64
        then s.withCore (acceptEdge x s.core) else s) := by
  rw [exec_edgeInstr]
  split
  next hle => exact onCore_of_next (edge_of_accepted he (edgeAccepted_iff_elapsed.mpr hle))
  next hlt => exact onCore_of_next (edge_of_rejected he (edgeAccepted_eq_false_iff.mpr (not_le.mp hlt)))

/-- Settles O13: EDGE x at each of the two lines. -/
theorem edgeDecidesByWindow : Obligations.EdgeDecidesByWindow := by
  unfold Obligations.EdgeDecidesByWindow
  exact ⟨fun _ hl hirq hisr => exec_edgeInstr_of_enabled (x := .a) (edgeEnabled_iff.mpr ⟨hl, hirq, hisr⟩),
    fun _ hl hirq hisr => exec_edgeInstr_of_enabled (x := .b) (edgeEnabled_iff.mpr ⟨hl, hirq, hisr⟩)⟩

/-- The state after SIGNAL x (R126). -/
def afterSignal (x : Line) (c : CoreState) : CoreState := { c.setIsr x false with smPend := true }

theorem exec_signalInstr_of_isr {x : Line} {s : State} (h : s.core.isr x = true) :
    exec (signalInstr x) s = .next (s.withCore (afterSignal x s.core)) := by
  rw [exec_signalInstr]
  exact onCore_of_next (signal_of_isr h)

/-- Settles O14: the two labels, and SIGNAL x at each of the two lines. -/
theorem signalSubmitsCoalesced : Obligations.SignalSubmitsCoalesced := by
  unfold Obligations.SignalSubmitsCoalesced
  exact ⟨decode_encode .signalA, decode_encode .signalB, fun _ => exec_signalInstr_of_isr (x := .a),
    fun _ => exec_signalInstr_of_isr (x := .b)⟩

/-! ### The two lines apart (R128) -/

theorem lines_of_ne {x y : Line} (h : y ≠ x) : (x = .a ∧ y = .b) ∨ (x = .b ∧ y = .a) := by
  cases x <;> cases y <;> simp at h ⊢

/-- A step neither reads nor overwrites what `u` writes: where it completes, it completes from the state with that write
too, and ends in the same state with it. -/
def Ignores (f : CoreState → CoreResult) (u : CoreState → CoreState) : Prop :=
  ∀ c d, f c = .next d → f (u c) = .next (u d)

theorem coreExec_edgeInstr (valid : Nat → Bool) (x : Line) : coreExec valid (edgeInstr x) = edge x := by cases x <;> rfl

theorem coreExec_signalInstr (valid : Nat → Bool) (x : Line) : coreExec valid (signalInstr x) = signal x := by
  cases x <;> rfl

/-- The filter of x ignores a write that keeps its two guards and its window test, and that its own writes leave
standing. -/
theorem filter_ignores {x : Line} {u : CoreState → CoreState} (hen : ∀ c, edgeEnabled x (u c) = edgeEnabled x c)
    (hacc : ∀ c, edgeAccepted x (u c) = edgeAccepted x c) (hisr : ∀ c, (u c).isr x = c.isr x)
    (hedge : ∀ c, acceptEdge x (u c) = u (acceptEdge x c)) (hsignal : ∀ c, afterSignal x (u c) = u (afterSignal x c))
    {i : Instr} (hi : i = edgeInstr x ∨ i = signalInstr x) (valid : Nat → Bool) : Ignores (coreExec valid i) u := by
  intro c d h
  obtain rfl | rfl := hi
  · rw [coreExec_edgeInstr] at h ⊢
    obtain ⟨he, ⟨ha, rfl⟩ | ⟨ha, rfl⟩⟩ := edge_next h
    · rw [← hedge]
      exact edge_of_accepted ((hen c).trans he) ((hacc c).trans ha)
    · exact edge_of_rejected ((hen _).trans he) ((hacc _).trans ha)
  · rw [coreExec_signalInstr] at h ⊢
    obtain ⟨hdue, rfl⟩ := signal_next h
    exact (signal_of_isr ((hisr c).trans hdue)).trans (congrArg _ (hsignal c))

/-- The filter of x ignores a write to the clock of the other line (R128). -/
theorem filter_ignores_setDclk {x y : Line} (hy : y ≠ x) {i : Instr} (hi : i = edgeInstr x ∨ i = signalInstr x)
    (valid : Nat → Bool) (v : Time) : Ignores (coreExec valid i) (CoreState.setDclk y v) := by
  obtain ⟨rfl, rfl⟩ | ⟨rfl, rfl⟩ := lines_of_ne hy <;>
    exact filter_ignores (u := CoreState.setDclk _ v) (fun _ => rfl) (fun _ => rfl) (fun _ => rfl) (fun _ => rfl)
      (fun _ => rfl) hi valid

/-- The filter of x ignores a write to the handler of the other line (R128). -/
theorem filter_ignores_setIsr {x y : Line} (hy : y ≠ x) {i : Instr} (hi : i = edgeInstr x ∨ i = signalInstr x)
    (valid : Nat → Bool) (v : Bool) : Ignores (coreExec valid i) (CoreState.setIsr y v) := by
  obtain ⟨rfl, rfl⟩ | ⟨rfl, rfl⟩ := lines_of_ne hy <;>
    exact filter_ignores (u := CoreState.setIsr _ v) (fun _ => rfl) (fun _ => rfl) (fun _ => rfl) (fun _ => rfl)
      (fun _ => rfl) hi valid

/-- The filter of x leaves the other line's registers, guard and window test as they are (R128). -/
theorem filter_frame {x y : Line} (hy : y ≠ x) {i : Instr} (hi : i = edgeInstr x ∨ i = signalInstr x)
    {valid : Nat → Bool} {c d : CoreState} (h : coreExec valid i c = .next d) :
    d.dclk y = c.dclk y ∧ d.isr y = c.isr y ∧ edgeAccepted y d = edgeAccepted y c ∧
      edgeEnabled y d = edgeEnabled y c := by
  rw [coreExec_frame h]
  obtain ⟨rfl, rfl⟩ | ⟨rfl, rfl⟩ := lines_of_ne hy <;> obtain rfl | rfl := hi <;> exact ⟨rfl, rfl, rfl, rfl⟩

theorem exec_withCore_of_ignores {i : Instr} {u : CoreState → CoreState} (hu : Ignores (coreExec Config.lineValid i) u)
    {s t : State} (h : exec i s = .next t) : exec i (s.withCore (u s.core)) = .next (t.withCore (u t.core)) := by
  rw [exec_onCore] at h ⊢
  obtain ⟨hcore, ht⟩ := onCore_next h
  rw [ht]
  exact onCore_of_next (hu _ _ hcore)

/-- Settles O15: the filter's frame, and that it ignores the other line's clock and handler. -/
theorem linesAreIndependent : Obligations.LinesAreIndependent := by
  unfold Obligations.LinesAreIndependent
  intro x y hy i hi s t h
  have hcore : coreExec Config.lineValid i s.core = .next t.core := (onCore_next (exec_onCore i s ▸ h)).1
  obtain ⟨hdclk, hisr, hacc, hen⟩ := filter_frame hy hi hcore
  exact ⟨hdclk, hisr, hacc, hen, fun v => exec_withCore_of_ignores (filter_ignores_setDclk hy hi _ v) h,
    fun v => exec_withCore_of_ignores (filter_ignores_setIsr hy hi _ v) h⟩

/-! ### A second edge on one line (R132) -/

theorem dclk_acceptEdge (x : Line) (c : CoreState) : (acceptEdge x c).dclk x = c.time := by cases x <;> rfl

theorem window_acceptEdge (x : Line) (c : CoreState) : (acceptEdge x c).window = c.window := by cases x <;> rfl

/-- Settles O16: DCLK[x] still holds the time of the first edge, and the window is a constant. -/
theorem secondEdgeNeedsWindow : Obligations.SecondEdgeNeedsWindow := by
  unfold Obligations.SecondEdgeNeedsWindow
  intro x s s1 is s2 h1 hacc hquiet hsteps hen
  rw [exec_edgeInstr] at h1
  obtain ⟨hedge, -⟩ := onCore_next h1
  obtain ⟨-, ⟨-, hs1⟩ | ⟨hrej, -⟩⟩ := edge_next hedge
  · obtain ⟨hcore, -⟩ := onCore_next hsteps
    have hdclk : s2.core.dclk x = s.time :=
      (dclk_of_coreSteps hquiet hcore).trans (hs1 ▸ dclk_acceptEdge x s.core)
    have hwindow : s2.window = s.window := (window_of_coreSteps hcore).trans (hs1 ▸ window_acceptEdge x s.core)
    rw [exec_edgeInstr_of_enabled hen, hdclk, hwindow]
  · simp [hacc] at hrej

/-! ### The first steps after INIT (R281) -/

theorem enabled_initState_iff (cfg : Cfg) (c : CoreState) (i : Instr) :
    enabled i (initState cfg c) = true ↔
      i = .pwm ∨ (∃ d, i = .tick d) ∨ i = .edgeA ∨ i = .edgeB ∨ i = .tdbegin := by
  cases i with
  | pwm => exact iff_of_true rfl (by simp)
  | tick d => exact iff_of_true rfl (by simp)
  | edgeA => exact iff_of_true rfl (by simp)
  | edgeB => exact iff_of_true rfl (by simp)
  | tdbegin => exact iff_of_true rfl (by simp)
  | _ => exact iff_of_false Bool.false_ne_true (by simp)

/-- Settles O49: each guard in the state that a successful INIT leaves. -/
theorem firstStepsAfterInit : Obligations.FirstStepsAfterInit := by
  unfold Obligations.FirstStepsAfterInit
  intro valid cfg fail s t hinit hactive
  obtain rfl := initState_of_active hinit hactive
  exact ⟨rfl, rfl, rfl, rfl, rfl, enabled_initState_iff cfg s⟩

/-! ### A pass after an edge (R145, R146) -/

/-- What a pass needs besides a request: an active core, no pass in flight, and S in agreement with a level in range. -/
structure ReadyForPass (c : CoreState) : Prop where
  active : c.life = .active
  idle : c.smPhase = false
  satCached : c.sat = satOf c.maxl c.level
  inRange : c.level ≤ c.maxl

/-- The level after a pass that reads the event of line x (R102, R140). -/
def levelAfter (x : Line) (c : CoreState) : Level :=
  match x with
  | .a => if c.level = c.maxl then c.level else c.level + 1#32
  | .b => if c.level = 0#32 then c.level else c.level - 1#32

theorem levelAfter_le (x : Line) {c : CoreState} (h : c.level ≤ c.maxl) : levelAfter x c ≤ c.maxl := by
  cases x <;> simp only [levelAfter] <;> split <;> bv_omega

/-- The state after a pass that reads the event of line x. -/
def afterPass (x : Line) (c : CoreState) : CoreState :=
  { c.emit (.obs (levelAfter x c) (pctOf c.maxl (levelAfter x c))) with
    level := levelAfter x c, sat := satOf c.maxl (levelAfter x c), smPend := false, smPhase := false }

theorem readyForPass_afterPass {x : Line} {c : CoreState} (h : ReadyForPass c) : ReadyForPass (afterPass x c) where
  active := h.active
  idle := rfl
  satCached := rfl
  inRange := levelAfter_le x h.inRange

theorem coreSteps_cons_of_next {valid : Nat → Bool} {i : Instr} {c d : CoreState} (h : coreStep valid i c = .next d)
    (is : List Instr) : coreSteps valid (i :: is) c = coreSteps valid is d := by simp [coreSteps, h]

theorem coreSteps_append_of_next {valid : Nat → Bool} {is : List Instr} {c d : CoreState}
    (h : coreSteps valid is c = .next d) (js : List Instr) : coreSteps valid (is ++ js) c = coreSteps valid js d := by
  induction is generalizing c with
  | nil => cases h; rfl
  | cons i is ih =>
    obtain ⟨e, he, hd⟩ := coreSteps_cons h
    rw [List.cons_append, coreSteps_cons_of_next he, ih hd]

/-- A requested pass that reads the event of line x completes. -/
theorem coreSteps_applySteps {x : Line} {c : CoreState} (h : ReadyForPass c) (hp : c.smPend = true)
    (he : c.event = evtOf x) (valid : Nat → Bool) : coreSteps valid applySteps c = .next (afterPass x c) := by
  have hstart : coreStep valid .smstart c = .next { c with smPend := false, smPhase := true } :=
    guardStep_of_enabled (smstartEnabled_iff.mpr ⟨h.active, hp, h.idle⟩)
  have hexec : coreStep valid .smexec { c with smPend := false, smPhase := true } = .next (afterPass x c) := by
    refine smexec_of_satOf (c := { c with smPend := false, smPhase := true }) rfl h.satCached h.inRange ?_
    cases x <;> simp [levelAfter, he, evtOf]
  rw [applySteps, coreSteps_cons_of_next hstart, coreSteps_cons_of_next hexec, coreSteps]

/-! ### Presses and passes (R122 to R127) -/

theorem event_acceptEdge (x : Line) (c : CoreState) : (acceptEdge x c).event = evtOf x := by cases x <;> rfl

theorem event_afterSignal (x : Line) (c : CoreState) : (afterSignal x c).event = c.event := by cases x <;> rfl

theorem level_afterSignal (x : Line) (c : CoreState) : (afterSignal x c).level = c.level := by cases x <;> rfl

theorem readyForPass_acceptEdge {x : Line} {c : CoreState} (h : ReadyForPass c) : ReadyForPass (acceptEdge x c) := by
  cases x <;> exact ⟨h.active, h.idle, h.satCached, h.inRange⟩

theorem readyForPass_afterSignal {x : Line} {c : CoreState} (h : ReadyForPass c) : ReadyForPass (afterSignal x c) := by
  cases x <;> exact ⟨h.active, h.idle, h.satCached, h.inRange⟩

theorem coreSteps_press {x : Line} {c : CoreState} (hen : edgeEnabled x c = true) (hacc : edgeAccepted x c = true)
    (valid : Nat → Bool) :
    coreSteps valid [edgeInstr x, signalInstr x] c = .next (afterSignal x (acceptEdge x c)) :=
  coreSteps_press_of_accepted hen hacc valid

theorem levelAfter_congr (x : Line) {c d : CoreState} (hl : c.level = d.level) (hm : c.maxl = d.maxl) :
    levelAfter x c = levelAfter x d := by simp [levelAfter, hl, hm]

/-- Whatever came before an accepted edge on x, the pass after it reads the event of x. -/
theorem execAll_press_apply {x : Line} {is : List Instr} {s : State} {c : CoreState}
    (his : coreSteps Config.lineValid is s.core = .next c) (h : ReadyForPass c) (hen : edgeEnabled x c = true)
    (hacc : edgeAccepted x c = true) :
    ∃ t, execAll (is ++ ([edgeInstr x, signalInstr x] ++ applySteps)) s = .next t ∧ t.core.dclk x = c.time ∧
      t.smPend = false ∧ t.output.length = c.output.length + 1 ∧ t.level = levelAfter x c := by
  have hevent : (afterSignal x (acceptEdge x c)).event = evtOf x :=
    (event_afterSignal ..).trans (event_acceptEdge ..)
  have hpass := coreSteps_applySteps (readyForPass_afterSignal (readyForPass_acceptEdge h)) rfl hevent Config.lineValid
  refine ⟨s.withCore (afterPass x (afterSignal x (acceptEdge x c))), onCore_of_next ?_, ?_, rfl, ?_, ?_⟩
  · rw [coreSteps_append_of_next his, coreSteps_append_of_next (coreSteps_press hen hacc _), hpass]
  · cases x <;> rfl
  · cases x <;> exact List.length_append
  · exact levelAfter_congr x (by cases x <;> rfl) (by cases x <;> rfl)

/-! ### Two edges before a pass (R127, R149, R286) -/

/-- The state a delay of `d` after an accepted EDGE x and its SIGNAL. -/
def afterPressTick (x : Line) (d : Time) (c : CoreState) : CoreState :=
  { afterSignal x (acceptEdge x c) with time := c.time + d }

theorem coreSteps_press_tick {x : Line} {c : CoreState} (hen : edgeEnabled x c = true) (hacc : edgeAccepted x c = true)
    (valid : Nat → Bool) (d : Time) :
    coreSteps valid ([edgeInstr x, signalInstr x] ++ [.tick d]) c = .next (afterPressTick x d c) := by
  rw [coreSteps_append_of_next (coreSteps_press hen hacc _)]
  cases x <;> rfl

theorem edgeEnabled_afterPressTick {x : Line} {c : CoreState} (h : edgeEnabled x c = true) (d : Time) :
    edgeEnabled x (afterPressTick x d c) = true := by
  obtain ⟨hl, hirq, -⟩ := edgeEnabled_iff.mp h
  cases x <;> exact edgeEnabled_iff.mpr ⟨hl, hirq, rfl⟩

/-- After a delay of a window or more the line accepts again (R123). -/
theorem edgeAccepted_afterPressTick (x : Line) {c : CoreState} {d : Time} (h : c.window ≤ d) :
    edgeAccepted x (afterPressTick x d c) = true := by
  have hd : c.window ≤ c.time + d - c.time := by rwa [add_sub_cancel_left]
  cases x <;> exact edgeAccepted_iff.mpr hd

/-- Settles O18: in each order the pass comes after a press of the later event's line. -/
theorem lastEventWins : Obligations.LastEventWins := by
  unfold Obligations.LastEventWins
  intro s hlife hirqA hirqB hisrA hisrB hphase haccA haccB hsat hle
  have henA : edgeEnabled .a s.core = true := edgeEnabled_iff.mpr ⟨hlife, hirqA, hisrA⟩
  have henB : edgeEnabled .b s.core = true := edgeEnabled_iff.mpr ⟨hlife, hirqB, hisrB⟩
  refine ⟨?aThenB, ?bThenA, fun d hd => ⟨?aTwice, ?bTwice⟩⟩
  case aThenB =>
    obtain ⟨t, ht, -, hrest⟩ := execAll_press_apply (x := .b) (coreSteps_press henA haccA _)
      ⟨hlife, hphase, hsat, hle⟩ henB haccB
    exact ⟨t, ht, hrest⟩
  case bThenA =>
    obtain ⟨t, ht, -, hrest⟩ := execAll_press_apply (x := .a) (coreSteps_press henB haccB _)
      ⟨hlife, hphase, hsat, hle⟩ henA haccA
    exact ⟨t, ht, hrest⟩
  case aTwice =>
    exact execAll_press_apply (x := .a) (coreSteps_press_tick henA haccA _ d) ⟨hlife, hphase, hsat, hle⟩
      (edgeEnabled_afterPressTick henA d) (edgeAccepted_afterPressTick .a hd)
  case bTwice =>
    exact execAll_press_apply (x := .b) (coreSteps_press_tick henB haccB _ d) ⟨hlife, hphase, hsat, hle⟩
      (edgeEnabled_afterPressTick henB d) (edgeAccepted_afterPressTick .b hd)

/-! ### One edge in two passes (R288) -/

theorem levelAfter_b_of_ne {c : CoreState} (h : c.level ≠ 0#32) : levelAfter .b c = c.level - 1#32 := if_neg h

/-- A pending pass reads an edge accepted before it, and the pass that the edge's own SIGNAL requests reads it again. -/
theorem coreSteps_edge_apply_signal_apply {x : Line} {c : CoreState} (h : ReadyForPass c) (hp : c.smPend = true)
    (hen : edgeEnabled x c = true) (hacc : edgeAccepted x c = true) (valid : Nat → Bool) :
    coreSteps valid (edgeInstr x :: (applySteps ++ signalInstr x :: applySteps)) c =
      .next (afterPass x (afterSignal x (afterPass x (acceptEdge x c)))) := by
  have hedge : coreStep valid (edgeInstr x) c = .next (acceptEdge x c) :=
    (coreStep_edgeInstr ..).trans (edge_of_accepted hen hacc)
  have hpass : coreSteps valid applySteps (acceptEdge x c) = .next (afterPass x (acceptEdge x c)) :=
    coreSteps_applySteps (readyForPass_acceptEdge h) (by cases x <;> exact hp) (event_acceptEdge x c) valid
  have hsignal : coreStep valid (signalInstr x) (afterPass x (acceptEdge x c)) =
      .next (afterSignal x (afterPass x (acceptEdge x c))) :=
    (coreStep_signalInstr ..).trans (signal_of_isr (by cases x <;> rfl))
  rw [coreSteps_cons_of_next hedge, coreSteps_append_of_next hpass, coreSteps_cons_of_next hsignal]
  exact coreSteps_applySteps (readyForPass_afterSignal (readyForPass_afterPass (readyForPass_acceptEdge h))) rfl
    (by cases x <;> rfl) valid

/-- Settles O19: both passes read Decrease, at a level that stays above 0 until the second. -/
theorem oneEventAppliedTwice : Obligations.OneEventAppliedTwice := by
  unfold Obligations.OneEventAppliedTwice
  intro s hlife hirq hisr hpend hphase hacc hsat h2 hle
  have hrun := coreSteps_edge_apply_signal_apply (x := .b) ⟨hlife, hphase, hsat, hle⟩ hpend
    (edgeEnabled_iff.mpr ⟨hlife, hirq, hisr⟩) hacc Config.lineValid
  refine ⟨_, onCore_of_next hrun, ?level, rfl, rfl, rfl⟩
  case level =>
    have hne : s.level ≠ 0#32 := by bv_omega
    have hfirst : (afterSignal .b (afterPass .b (acceptEdge .b s.core))).level = s.level - 1#32 :=
      (level_afterSignal ..).trans (levelAfter_b_of_ne hne)
    calc levelAfter .b (afterSignal .b (afterPass .b (acceptEdge .b s.core)))
        = (afterSignal .b (afterPass .b (acceptEdge .b s.core))).level - 1#32 :=
          levelAfter_b_of_ne (by rw [hfirst]; bv_omega)
      _ = s.level - 2#32 := by rw [hfirst]; bv_omega

end Sys2Proof.Machine
end

section
/-! The State Machine: the transition table (O20), SMSTART (O22), a pass with MAXL = 0 (O24), what a pass records (O25),
passes one after the other (O26), and the level's range (O53). -/

namespace Sys2Proof.Machine

/-! ### The transition table (R140, R103) -/

theorem romAction_bits (s : SatState) (e : Event) : romAction (s.bits ++ e.bits) = some (tableAction s e).bits := by
  cases s <;> cases e <;> rfl

theorem romAction_eq_none_iff : ∀ addr : BitVec 4,
    romAction addr = none ↔ (addr.extractLsb' 2 2 = 0b11#2 ∨ addr.extractLsb' 0 2 = 0b11#2) := by decide

/-- Settles O20: the nine entries, their bits at their addresses, and the addresses with no entry. -/
theorem transitionTable : Obligations.TransitionTable := by
  unfold Obligations.TransitionTable
  exact ⟨⟨rfl, rfl, rfl, rfl, rfl, rfl, rfl, rfl, rfl⟩, romAction_bits, romAction_eq_none_iff⟩

/-! ### One pass (R145 to R147) -/

theorem smstart_of_enabled {c : CoreState} (h : smstartEnabled c = true) :
    smstart c = .next { c with smPend := false, smPhase := true } := guardStep_of_enabled h

/-- Settles O22: the label, and SMSTART under its guard. -/
theorem smstartClaimsPass : Obligations.SmstartClaimsPass := by
  unfold Obligations.SmstartClaimsPass
  refine ⟨decode_encode .smstart, fun s hlife hpend hphase => ?_⟩
  rw [exec_onCore]
  exact onCore_of_next (smstart_of_enabled (smstartEnabled_iff.mpr ⟨hlife, hpend, hphase⟩))

theorem passAction_of_maxl_zero {c : CoreState} (h : c.maxl = 0#32) : passAction c = .noop := if_pos h

/-- A no-op pass at a level in range completes: it recomputes S, records the level it found and ends (R146, R147). -/
theorem smexec_of_noop {c : CoreState} (hp : c.smPhase = true) (ha : passAction c = .noop) (hle : c.level ≤ c.maxl) :
    smexec c = .next { c.emit (.obs c.level (pctOf c.maxl c.level)) with
      sat := satOf c.maxl c.level, smPhase := false } := by
  rw [smexec, guardStep_of_enabled (e := smexecEnabled c) hp, ha]
  exact finishPass_of_le hle

/-- With MAXL = 0 a pass at level 0 is a no-op; sat and the percentage of its level are Off and 0 (R35, R141, R147). -/
theorem smexec_of_maxl_zero {c : CoreState} (hp : c.smPhase = true) (hm : c.maxl = 0#32) (hl : c.level = 0#32) :
    smexec c = .next { c.emit (.obs 0#32 0#8) with sat := .off, smPhase := false } := by
  have hsat : satOf c.maxl c.level = .off := satOf_eq_off_iff.mpr hl
  have hpct : pctOf c.maxl c.level = 0#8 := by simp [pctOf, pctNat, hm]
  rw [smexec_of_noop hp (passAction_of_maxl_zero hm) (by simp [hm, hl]), hsat, hpct, hl]

/-- Settles O24: the degenerate pass of the core's relation, beside the trace. -/
theorem degenerateMaxLevel : Obligations.DegenerateMaxLevel := by
  unfold Obligations.DegenerateMaxLevel
  intro s hphase hmaxl hlevel
  rw [exec_onCore]
  exact ⟨passAction_of_maxl_zero hmaxl, onCore_of_next (smexec_of_maxl_zero hphase hmaxl hlevel)⟩

/-- Settles O25: a pass records its level and percentage, and no other instruction emits an OBS record. -/
theorem oneObservationPerPass : Obligations.OneObservationPerPass := by
  unfold Obligations.OneObservationPerPass
  refine ⟨fun s t hx => ?pass, fun i s t hi hx => ?other⟩
  all_goals rw [exec_onCore] at hx
  case pass =>
    obtain ⟨hcore, ht⟩ := onCore_next hx
    obtain ⟨-, l, -, hle, hd⟩ := smexec_next hcore
    rw [ht, hd]
    have hpct := pctOf_toNat hle
    exact ⟨pctOf s.maxl l, rfl, hpct.trans_le (pctNat_le hle), hpct⟩
  case other => exact output_of_coreExec hi (onCore_next hx).1

/-! ### Passes one after the other (R153) -/

theorem andThen_next_right (r : CoreResult) : andThen r .next = r := by cases r <;> rfl

/-- APPLY's two steps are SMSTART, then SMEXEC on what it leaves (R109). -/
theorem coreSteps_applySteps_eq (valid : Nat → Bool) (c : CoreState) :
    coreSteps valid applySteps c = andThen (smstart c) smexec :=
  congrArg (andThen (smstart c)) (funext fun d => andThen_next_right (smexec d))

/-- A pass that reads the event of line x, the request included. -/
theorem onePass_of_ready {x : Line} {c : CoreState} (h : ReadyForPass c) (he : c.event = evtOf x) :
    onePass c = .next (afterPass x c) := by
  have hready : ReadyForPass { c with smPend := true } := ⟨h.active, h.idle, h.satCached, h.inRange⟩
  rw [onePass, ← coreSteps_applySteps_eq Config.lineValid]
  exact coreSteps_applySteps hready rfl he _

/-- The level that `n` passes reading the event of line x reach: each goes one step, and the range's end stops them. -/
def levelAfterPasses (x : Line) (n : Nat) (c : CoreState) : Nat :=
  match x with
  | .a => min (c.level.toNat + n) c.maxl.toNat
  | .b => c.level.toNat - n

theorem levelAfterPasses_zero (x : Line) {c : CoreState} (h : c.level ≤ c.maxl) :
    levelAfterPasses x 0 c = c.level.toNat := by
  cases x with
  | a => exact min_eq_left h
  | b => rfl

/-- One pass and `n` more reach the level of `n + 1`: below the range's end the first goes a step, at it all stay. -/
theorem levelAfterPasses_afterPass (x : Line) (n : Nat) {c : CoreState} (h : c.level ≤ c.maxl) :
    levelAfterPasses x n (afterPass x c) = levelAfterPasses x (n + 1) c := by
  cases x with
  | a =>
    simp only [levelAfterPasses, afterPass, levelAfter, maxl_emit]
    split
    next heq => rw [heq]; omega
    next hne =>
      have hstep : (c.level + 1#32).toNat = c.level.toNat + 1 := by bv_omega
      rw [hstep]
      omega
  | b =>
    simp only [levelAfterPasses, afterPass, levelAfter]
    split
    next h0 => simp [h0]
    next hne =>
      have hstep : (c.level - 1#32).toNat = c.level.toNat - 1 := by bv_omega
      rw [hstep]
      omega

/-- Passes that read the event of line x complete, since each leaves E and a state ready for the next. -/
theorem passes_of_ready {x : Line} (n : Nat) {c : CoreState} (h : ReadyForPass c) (he : c.event = evtOf x) :
    ∃ t, passes n c = .next t ∧ t.level.toNat = levelAfterPasses x n c := by
  induction n generalizing c with
  | zero => exact ⟨c, rfl, (levelAfterPasses_zero x h.inRange).symm⟩
  | succ n ih =>
    obtain ⟨t, ht, hlevel⟩ := ih (readyForPass_afterPass (x := x) h) he
    refine ⟨t, ?_, hlevel.trans (levelAfterPasses_afterPass x n h.inRange)⟩
    rw [passes, onePass_of_ready h he]
    exact ht

/-- Settles O26: passes from the bottom of the range up, and from its top down. -/
theorem passesSaturate : Obligations.PassesSaturate := by
  unfold Obligations.PassesSaturate
  refine fun n s hlife hphase => ⟨fun hevent hlevel hsat => ?increase, fun hevent hlevel hsat => ?decrease⟩
  case increase =>
    have hready : ReadyForPass s :=
      ⟨hlife, hphase, hsat.trans (satOf_eq_off_iff.mpr hlevel).symm, BitVec.le_def.mpr (by simp [hlevel])⟩
    obtain ⟨t, ht, hend⟩ := passes_of_ready (x := .a) n hready hevent
    exact ⟨t, ht, by simpa [levelAfterPasses, hlevel] using hend⟩
  case decrease =>
    have hready : ReadyForPass s := ⟨hlife, hphase, by rw [hsat, hlevel], hlevel ▸ BitVec.le_refl _⟩
    obtain ⟨t, ht, hend⟩ := passes_of_ready (x := .b) n hready hevent
    exact ⟨t, ht, by simpa [levelAfterPasses, hlevel] using hend⟩

/-! ### The level's range (R33, R174) -/

/-- INIT starts at level 0, or writes neither LIFE, L nor MAXL (R222, R225). -/
theorem initWith_keeps_levelInRange {valid : Nat → Bool} {cfg : Cfg} {fail : BitVec 3} {c d : CoreState}
    (h : LevelInRange c) (hx : initWith valid cfg fail c = .next d) : LevelInRange d := by
  obtain ⟨-, -, -, ⟨-, -, -, rfl⟩ | ⟨e, -, rfl⟩⟩ := init_next hx
  · exact (initState_inv cfg c).levelInRange
  · exact h

theorem tdbegin_keeps_levelInRange {c d : CoreState} (h : LevelInRange c) (hx : tdbegin c = .next d) :
    LevelInRange d := by
  obtain ⟨he, rfl⟩ := tdbegin_next hx
  obtain ⟨hlife, -, -⟩ := tdbeginEnabled_iff.mp he
  exact fun _ => h (by simp [hlife])

/-- Of the steps, SMEXEC and INIT alone write L, INIT alone MAXL, and a lifecycle step turns LIFE on from a state where
the level is in range (R32, R47, R50). -/
theorem coreStep_keeps_levelInRange {valid : Nat → Bool} {i : Instr} {c d : CoreState} (h : LevelInRange c)
    (hx : coreStep valid i c = .next d) : LevelInRange d := by
  obtain ⟨hport, hx⟩ := coreStep_next hx
  cases i with
  | smexec => exact fun _ => level_le_of_smexec hx
  | init cfg fail => exact initWith_keeps_levelInRange h hx
  | tdbegin => exact tdbegin_keeps_levelInRange h hx
  | tdend =>
    obtain ⟨-, rfl⟩ := tdend_next hx
    exact fun hn => absurd rfl hn
  | sinc => cases hport
  | sdec => cases hport
  | _ =>
    rw [coreExec_frame hx]
    exact h

theorem level_le_of_storeInc {c d : CoreState} (h : storeInc c = .next d) : d.level ≤ d.maxl := by
  obtain ⟨hlt, rfl⟩ := storeInc_next h
  show c.level + 1#32 ≤ c.maxl
  bv_omega

/-- Settles O53: a step of the machine is one of the relation's, and SMEXEC and SINC answer only in range. -/
theorem levelNeverLeavesRange : Obligations.LevelNeverLeavesRange := by
  unfold Obligations.LevelNeverLeavesRange
  refine ⟨fun s t h hx => ?_, fun i s t hi hx => ?_⟩
  · obtain ⟨i, hi⟩ := step_next_core hx
    exact coreStep_keeps_levelInRange h hi
  · rw [exec_onCore] at hx
    obtain ⟨hcore, -⟩ := onCore_next hx
    obtain rfl | rfl := hi
    · exact level_le_of_smexec hcore
    · exact level_le_of_storeInc hcore

end Sys2Proof.Machine
end

section
/-! The Shared Brightness Store: SREAD, SINC and SDEC where they complete (O27) and where they stop (O28). -/

namespace Sys2Proof.Machine

/-! ### In bounds (R170 to R172) -/

theorem exec_sread (s : State) : exec .sread s = .next s := (exec_onCore .sread s).trans (onCore_of_next rfl)

theorem exec_sinc_of_lt {s : State} (h : s.level < s.maxl) :
    exec .sinc s = .next { s with level := s.level + 1#32 } :=
  (exec_onCore .sinc s).trans (onCore_of_next (storeInc_of_lt h))

theorem exec_sdec_of_ne {s : State} (h : s.level ≠ 0#32) :
    exec .sdec s = .next { s with level := s.level - 1#32 } :=
  (exec_onCore .sdec s).trans (onCore_of_next (storeDec_of_ne h))

/-- Settles O27: below MAXL the sum does not wrap, and above 0 the difference does not. -/
theorem storePortOperations : Obligations.StorePortOperations := by
  unfold Obligations.StorePortOperations
  refine ⟨fun s => ⟨rfl, exec_sread s⟩, fun s hlt => ?inc, fun s hne => ?dec⟩
  case inc =>
    have hexact : (s.level + 1#32).toNat = s.level.toNat + 1 := by bv_omega
    exact ⟨_, hexact, exec_sinc_of_lt hlt⟩
  case dec =>
    have hexact : (s.level - 1#32).toNat + 1 = s.level.toNat := by bv_omega
    exact ⟨_, hexact, exec_sdec_of_ne hne⟩

/-! ### At the bounds (R174) -/

theorem storeInc_of_le {c : CoreState} (h : c.maxl ≤ c.level) : storeInc c = .fault .invariantViolated :=
  if_neg (BitVec.not_lt.mpr h)

theorem storeDec_of_eq {c : CoreState} (h : c.level = 0#32) : storeDec c = .fault .invariantViolated := if_pos h

/-- Settles O28: at its bound each operation's own test fails, and the machine stops as the core does. -/
theorem storeBoundsFault : Obligations.StoreBoundsFault := by
  unfold Obligations.StoreBoundsFault
  refine ⟨fun s hle => ?inc, fun s h0 => ?dec⟩
  case inc => exact (exec_onCore .sinc s).trans (onCore_fault.mpr (storeInc_of_le hle))
  case dec => exact (exec_onCore .sdec s).trans (onCore_fault.mpr (storeDec_of_eq h0))

end Sys2Proof.Machine
end

section
/-! The Software PWM Engine: the dwells (O31), an iteration exactly (O29, O30, O32), the waveform at a fixed level
(O33), when the engine runs (O34), and the output line after TDBEGIN (O38). -/

namespace Sys2Proof.Machine

/-! ### The dwells (R191) -/

theorem hiDwell_le_period (period : Time) {maxl l : Level} (h : l < maxl) : hiDwell period maxl l ≤ period.toNat := by
  refine Nat.div_le_of_le_mul ?_
  rw [Nat.mul_comm maxl.toNat]
  exact Nat.mul_le_mul_left _ (Nat.le_of_lt h)

theorem loDwell_le_period (period : Time) (maxl l : Level) : loDwell period maxl l ≤ period.toNat := Nat.sub_le ..

theorem hiDwell_add_loDwell (period : Time) {maxl l : Level} (h : l < maxl) :
    hiDwell period maxl l + loDwell period maxl l = period.toNat := Nat.add_sub_of_le (hiDwell_le_period period h)

/-- Settles O31: the division with its remainder, and both dwells at most the period. -/
theorem dwellsSplitPeriod : Obligations.DwellsSplitPeriod := by
  unfold Obligations.DwellsSplitPeriod
  intro period maxl l _ hlt
  have hpos : 0 < maxl.toNat := Nat.zero_lt_of_lt hlt
  exact ⟨Nat.div_mul_le_self .., Nat.lt_mul_of_div_lt (Nat.lt_succ_self _) hpos, hiDwell_add_loDwell period hlt,
    (hiDwell_le_period period hlt).trans_lt period.isLt, (loDwell_le_period ..).trans_lt period.isLt⟩

/-! ### An iteration at the ends of the range (R193) -/

theorem exec_pwm_of_enabled {s : State} {d : CoreState} (he : pwmEnabled s.core = true)
    (h : pwmIteration s.level s.core = .next d) : exec .pwm s = .next (s.withCore d) :=
  (exec_onCore .pwm s).trans (onCore_of_next ((guardStep_of_enabled he).trans h))

theorem pwmIteration_of_zero {l : Level} (h : l = 0#32) (c : CoreState) :
    pwmIteration l c = .next (driveOut false c) := if_pos h

theorem pwmIteration_of_maxl {l : Level} {c : CoreState} (h0 : l ≠ 0#32) (h : l = c.maxl) :
    pwmIteration l c = .next (driveOut true c) := (if_neg h0).trans (if_pos h)

/-- Settles O29: the iteration's first two tests. -/
theorem pwmForcesBoundaries : Obligations.PwmForcesBoundaries := by
  unfold Obligations.PwmForcesBoundaries
  intro s hlife hrun hcancel
  have hen : pwmEnabled s.core = true := pwmEnabled_iff.mpr ⟨hlife, hrun, hcancel⟩
  exact ⟨fun h0 => exec_pwm_of_enabled hen (pwmIteration_of_zero h0 _),
    fun h0 hmax => exec_pwm_of_enabled hen (pwmIteration_of_maxl h0 hmax)⟩

/-! ### An iteration at an interior level (R195, R196) -/

theorem pwmIteration_of_interior {l : Level} {c : CoreState} (h0 : 0#32 < l) (hlt : l < c.maxl) :
    pwmIteration l c = .next (if flipDue c l then flipOut c else c) := by
  have hne : l ≠ 0#32 := (BitVec.ne_of_lt h0).symm
  simp [pwmIteration, hne, BitVec.ne_of_lt hlt, hlt]

/-- The engine runs, at a level strictly inside the range. -/
structure PwmInterior (c : CoreState) : Prop where
  enabled : pwmEnabled c = true
  positive : 0#32 < c.level
  belowMaxl : c.level < c.maxl

theorem PwmInterior.exec_of_flipDue {s : State} (h : PwmInterior s.core) (hf : flipDue s.core s.level = true) :
    exec .pwm s = .next (s.withCore (flipOut s.core)) :=
  exec_pwm_of_enabled h.enabled ((pwmIteration_of_interior h.positive h.belowMaxl).trans (by rw [if_pos hf]))

theorem PwmInterior.exec_of_not_flipDue {s : State} (h : PwmInterior s.core) (hf : ¬ flipDue s.core s.level = true) :
    exec .pwm s = .next s :=
  exec_pwm_of_enabled h.enabled ((pwmIteration_of_interior h.positive h.belowMaxl).trans (by rw [if_neg hf]))

/-- Settles O30: the comparator decides between the flip and no change. -/
theorem pwmFlipsWhenDwellReached : Obligations.PwmFlipsWhenDwellReached := by
  unfold Obligations.PwmFlipsWhenDwellReached
  intro s hi hlife hrun hcancel h0 hlt hhi
  subst hhi
  have hint : PwmInterior s.core := ⟨pwmEnabled_iff.mpr ⟨hlife, hrun, hcancel⟩, h0, hlt⟩
  by_cases hf : flipDue s.core s.level = true
  · exact (hint.exec_of_flipDue hf).trans (if_pos (flipDue_iff.mp hf)).symm
  · exact (hint.exec_of_not_flipDue hf).trans (if_neg (mt flipDue_iff.mpr hf)).symm

/-- A dwell of 0 is reached at every time. -/
theorem flipDue_of_dwell_zero {c : CoreState} {l : Level} (h : dwell c l = 0) : flipDue c l = true :=
  flipDue_iff.mpr (h.trans_le (Nat.zero_le _))

/-- Settles O32: both dwells are at most the period 0, so the comparator holds. -/
theorem zeroPeriodAlwaysFlips : Obligations.ZeroPeriodAlwaysFlips := by
  unfold Obligations.ZeroPeriodAlwaysFlips
  intro s hlife hrun hcancel h0 hlt hperiod
  have hzero : s.period.toNat = 0 := by simp [hperiod]
  have hhi : hiDwell s.period s.maxl s.level = 0 := Nat.eq_zero_of_le_zero (hzero ▸ hiDwell_le_period s.period hlt)
  have hlo : loDwell s.period s.maxl s.level = 0 := Nat.eq_zero_of_le_zero (hzero ▸ loDwell_le_period ..)
  have hint : PwmInterior s.core := ⟨pwmEnabled_iff.mpr ⟨hlife, hrun, hcancel⟩, h0, hlt⟩
  exact ⟨hhi, hlo, hint.exec_of_flipDue (flipDue_of_dwell_zero (by simp [dwell, hhi, hlo]))⟩

/-! ### The waveform (R191, R195) -/

/-- The state after TICK d (R220). -/
def afterTick (d : Time) (c : CoreState) : CoreState := { c with time := c.time + d }

/-- A delay after a transition is the whole elapsed time. -/
theorem flipDue_afterTick_iff {c : CoreState} (hclk : c.pclk = c.time) (d : Time) (l : Level) :
    flipDue (afterTick d c) l = true ↔ dwell c l ≤ d.toNat := by
  have hsince : (afterTick d c).since (afterTick d c).pclk = d := by simp [afterTick, CoreState.since, hclk]
  rw [flipDue, hsince, Nat.ble_eq]
  rfl

/-- From a transition just made, an iteration a delay later flips OUT if the delay has reached the dwell, and else
changes nothing. -/
theorem PwmInterior.coreSteps_tick_pwm {c : CoreState} (h : PwmInterior c) (hclk : c.pclk = c.time) (d : Time)
    (valid : Nat → Bool) :
    coreSteps valid [.tick d, .pwm] c =
      .next (if dwell c c.level ≤ d.toNat then flipOut (afterTick d c) else afterTick d c) := by
  have htick : coreStep valid (.tick d) c = .next (afterTick d c) := rfl
  have hpwm : coreStep valid .pwm (afterTick d c) =
      .next (if flipDue (afterTick d c) c.level then flipOut (afterTick d c) else afterTick d c) :=
    (guardStep_of_enabled h.enabled).trans (pwmIteration_of_interior h.positive h.belowMaxl)
  rw [coreSteps_cons_of_next htick, coreSteps_cons_of_next hpwm, coreSteps]
  simp only [flipDue_afterTick_iff hclk]

theorem PwmInterior.coreSteps_before_dwell {c : CoreState} (h : PwmInterior c) (hclk : c.pclk = c.time) {d : Time}
    (hd : d.toNat < dwell c c.level) (valid : Nat → Bool) :
    coreSteps valid [.tick d, .pwm] c = .next (afterTick d c) := by
  rw [h.coreSteps_tick_pwm hclk, if_neg (Nat.not_le.mpr hd)]

/-- The state where, a delay of `d` after `c`, an iteration has flipped OUT to `b` (R195). -/
def afterFlip (b : Bool) (d : Time) (c : CoreState) : CoreState :=
  { driveOut b c with time := c.time + d, pclk := c.time + d }

theorem pwmInterior_afterFlip {c : CoreState} (h : PwmInterior c) (b : Bool) (d : Time) :
    PwmInterior (afterFlip b d c) := ⟨h.enabled, h.positive, h.belowMaxl⟩

theorem flipOut_afterTick {b : Bool} {c : CoreState} (hb : (!c.out) = b) (d : Time) :
    flipOut (afterTick d c) = afterFlip b d c := by
  subst hb
  rfl

theorem PwmInterior.coreSteps_at_dwell {b : Bool} {c : CoreState} (h : PwmInterior c) (hclk : c.pclk = c.time)
    (hb : (!c.out) = b) {d : Time} (hd : d.toNat = dwell c c.level) (valid : Nat → Bool) :
    coreSteps valid [.tick d, .pwm] c = .next (afterFlip b d c) := by
  rw [h.coreSteps_tick_pwm hclk, if_pos hd.ge, flipOut_afterTick hb]

/-- No dwell wraps as a 64-bit word. -/
theorem toNat_ofNat_of_le_period {n : Nat} {period : Time} (h : n ≤ period.toNat) : (BitVec.ofNat 64 n).toNat = n :=
  (BitVec.toNat_ofNat ..).trans (Nat.mod_eq_of_lt (h.trans_lt period.isLt))

/-- The two dwells, as 64-bit words, add up to the period. -/
theorem ofNat_hiDwell_add_ofNat_loDwell (period : Time) {maxl l : Level} (h : l < maxl) :
    BitVec.ofNat 64 (hiDwell period maxl l) + BitVec.ofNat 64 (loDwell period maxl l) = period := by
  rw [← BitVec.ofNat_add, hiDwell_add_loDwell period h, BitVec.ofNat_toNat, BitVec.setWidth_eq]

/-- Settles O33: the HIGH part of the period ends in the transition from which the LOW part runs. -/
theorem pwmWaveform : Obligations.PwmWaveform := by
  unfold Obligations.PwmWaveform
  intro s hi lo hlife hrun hcancel h0 hlt hout hclk hhi hlo
  have hint : PwmInterior s.core := ⟨pwmEnabled_iff.mpr ⟨hlife, hrun, hcancel⟩, h0, hlt⟩
  have hhigh : hi.toNat = dwell s.core s.level := by
    rw [hhi, toNat_ofNat_of_le_period (hiDwell_le_period s.period hlt), dwell, if_pos hout]
  have hlow : lo.toNat = dwell (afterFlip false hi s.core) s.level := by
    rw [hlo, toNat_ofNat_of_le_period (loDwell_le_period ..)]
    rfl
  have hperiod : hi + lo = s.period := by rw [hhi, hlo, ofNat_hiDwell_add_ofNat_loDwell s.period hlt]
  have hfall : coreSteps Config.lineValid [.tick hi, .pwm] s.core = .next (afterFlip false hi s.core) :=
    hint.coreSteps_at_dwell hclk (by simp [hout]) hhigh _
  have hintLow : PwmInterior (afterFlip false hi s.core) := pwmInterior_afterFlip hint false hi
  refine ⟨fun d hd => onCore_of_next ?high, onCore_of_next hfall, fun d hd => onCore_of_next ?low, ?rise⟩
  case high => exact hint.coreSteps_before_dwell hclk (hhigh ▸ hd) _
  case low =>
    exact (coreSteps_append_of_next hfall [.tick d, .pwm]).trans
      (hintLow.coreSteps_before_dwell rfl (hlow ▸ hd) _)
  case rise =>
    have hrise := (coreSteps_append_of_next hfall [.tick lo, .pwm]).trans
      (hintLow.coreSteps_at_dwell (b := true) rfl rfl hlow _)
    refine (onCore_of_next hrise).trans ?_
    simp [State.withCore, afterFlip, driveOut, CoreState.emit, add_assoc, hperiod, hout]

/-! ### When the engine runs (R190, R192, R197) -/

/-- Of the steps other than INIT, TDBEGIN alone stops the engine, and none starts it. -/
theorem pwmEnabled_of_coreExec_iff {valid : Nat → Bool} {i : Instr} {c d : CoreState}
    (hi : ∀ cfg fail, i ≠ .init cfg fail) (h : coreExec valid i c = .next d) :
    pwmEnabled d = true ↔ pwmEnabled c = true ∧ i ≠ .tdbegin := by
  cases i with
  | init cfg fail => exact absurd rfl (hi cfg fail)
  | tdbegin =>
    obtain ⟨-, rfl⟩ := tdbegin_next h
    simp [pwmEnabled]
  | tdend =>
    obtain ⟨he, rfl⟩ := tdend_next h
    obtain ⟨hlife, -⟩ := tdendEnabled_iff.mp he
    simp [pwmEnabled, hlife]
  | _ =>
    rw [coreExec_frame h]
    simp [pwmEnabled, writtenBy]

/-- INIT has no move while the engine runs (R192, R222). -/
theorem ne_init_of_pwmEnabled {valid : Nat → Bool} {i : Instr} {c d : CoreState} (he : pwmEnabled c = true)
    (h : coreExec valid i c = .next d) (cfg : Cfg) (fail : BitVec 3) : i ≠ .init cfg fail := by
  rintro rfl
  obtain ⟨hlife, -, -⟩ := pwmEnabled_iff.mp he
  obtain ⟨hoff, -⟩ := init_next h
  simp [hlife] at hoff

/-- Settles O34: the state a successful INIT leaves, then the steps from a state where the engine runs. -/
theorem pwmRunsUntilTeardown : Obligations.PwmRunsUntilTeardown := by
  unfold Obligations.PwmRunsUntilTeardown
  refine ⟨fun valid cfg fail s t hinit hactive => ?init, fun i s t he hx => ?step⟩
  case init =>
    obtain rfl := initState_of_active hinit hactive
    rfl
  case step =>
    rw [exec_onCore] at hx
    obtain ⟨hcore, -⟩ := onCore_next hx
    rw [pwmEnabled_of_coreExec_iff (ne_init_of_pwmEnabled he hcore) hcore, and_iff_right he]

/-! ### The output line after TDBEGIN (R194, R197, R226) -/

/-- The same OUT and the same WR records. -/
def SameOutputLine (c d : CoreState) : Prop := wrRecords d.output = wrRecords c.output ∧ d.out = c.out

theorem SameOutputLine.trans {c d e : CoreState} (h : SameOutputLine c d) (h' : SameOutputLine d e) :
    SameOutputLine c e := by
  obtain ⟨hrec, hout⟩ := h
  obtain ⟨hrec', hout'⟩ := h'
  exact ⟨hrec'.trans hrec, hout'.trans hout⟩

theorem wrRecords_append_obs (out : List OutRec) (l : Level) (p : BitVec 8) :
    wrRecords (out ++ [.obs l p]) = wrRecords out := by simp [wrRecords]

/-- While the engine does not run, no step but INIT reaches the output line: PWM has no move, and SMEXEC emits no WR
record. -/
theorem sameOutputLine_of_coreExec {valid : Nat → Bool} {i : Instr} {c d : CoreState}
    (hi : ∀ cfg fail, i ≠ .init cfg fail) (hc : ¬ pwmEnabled c = true) (h : coreExec valid i c = .next d) :
    SameOutputLine c d := by
  cases i with
  | smexec =>
    obtain ⟨-, l, -, -, rfl⟩ := smexec_next h
    exact ⟨wrRecords_append_obs .., rfl⟩
  | pwm =>
    obtain ⟨he, -⟩ := pwm_next h
    exact absurd he hc
  | init cfg fail => exact absurd rfl (hi cfg fail)
  | _ =>
    rw [coreExec_frame h]
    exact ⟨rfl, rfl⟩

theorem noInit_cons {i : Instr} {is : List Instr} (h : noInit (i :: is) = true) :
    (∀ cfg fail, i ≠ .init cfg fail) ∧ noInit is = true := by
  cases i with
  | init cfg fail => cases h
  | _ => exact ⟨nofun, h⟩

/-- Where the engine does not run, it stays so until an INIT, and so does the output line. -/
theorem sameOutputLine_of_coreSteps {valid : Nat → Bool} {is : List Instr} {c d : CoreState} (hn : noInit is = true)
    (hc : ¬ pwmEnabled c = true) (h : coreSteps valid is c = .next d) : SameOutputLine c d := by
  induction is generalizing c with
  | nil => cases h; exact ⟨rfl, rfl⟩
  | cons i is ih =>
    obtain ⟨hi, his⟩ := noInit_cons hn
    obtain ⟨e, he, hd⟩ := coreSteps_cons h
    obtain ⟨-, hx⟩ := coreStep_next he
    have hstopped : ¬ pwmEnabled e = true := fun hen => hc ((pwmEnabled_of_coreExec_iff hi hx).mp hen).1
    exact (sameOutputLine_of_coreExec hi hc hx).trans (ih his hstopped hd)

/-- Settles O38: TDBEGIN itself writes no output line and stops the engine. -/
theorem noOutputWriteAfterTeardownBegins : Obligations.NoOutputWriteAfterTeardownBegins := by
  unfold Obligations.NoOutputWriteAfterTeardownBegins
  intro s is t hn hx
  obtain ⟨hsteps, -⟩ := onCore_next hx
  obtain ⟨e, he, hd⟩ := coreSteps_cons hsteps
  obtain ⟨-, htd⟩ := coreStep_next he
  have hstopped : ¬ pwmEnabled e = true := fun hen => ((pwmEnabled_of_coreExec_iff (by simp) htd).mp hen).2 rfl
  have hbegin : SameOutputLine s.core e := by
    rw [coreExec_frame htd]
    exact ⟨rfl, rfl⟩
  exact hbegin.trans (sameOutputLine_of_coreSteps hn hstopped hd)

end Sys2Proof.Machine
end

section
/-! The host's steps and the lifecycle: TICK (O39, O40), INIT and its startup errors (O41 to O43), TDBEGIN and TDEND
(O45, O46, O56), a teardown beside a pass (O47), and what is left for the next INIT (O48). -/

namespace Sys2Proof.Machine

/-! ### TICK (R220) -/

theorem exec_tick (d : Time) (s : State) : exec (.tick d) s = .next { s with time := s.time + d } :=
  (exec_onCore (.tick d) s).trans (onCore_of_next rfl)

/-- Settles O39: the label with its operand, and the sum modulo 2^64. -/
theorem tickAdvancesTime : Obligations.TickAdvancesTime := by
  unfold Obligations.TickAdvancesTime
  exact ⟨fun d => decode_encode (.tick d), fun d s => ⟨s.time + d, BitVec.toNat_add .., exec_tick d s⟩⟩

/-- TICK alone writes T (R40). -/
theorem time_of_coreExec {valid : Nat → Bool} {i : Instr} {c e : CoreState} (hi : ∀ d, i ≠ .tick d)
    (h : coreExec valid i c = .next e) : e.time = c.time := by
  rw [coreExec_frame h]
  cases i with
  | tick d => exact absurd rfl (hi d)
  | _ => rfl

theorem time_le_add {t d : Time} (h : t.toNat + d.toNat < 2 ^ 64) : t.toNat ≤ (t + d).toNat := by
  rw [BitVec.toNat_add, Nat.mod_eq_of_lt h]
  exact Nat.le_add_right ..

/-- Settles O40: the steps other than TICK, then the sum that does not wrap. -/
theorem timeNeverGoesBack : Obligations.TimeNeverGoesBack := by
  unfold Obligations.TimeNeverGoesBack
  refine ⟨fun i s t hx hi => ?other, fun d s t hx hlt => ?tick⟩
  case other =>
    rw [exec_onCore] at hx
    exact time_of_coreExec hi (onCore_next hx).1
  case tick =>
    rw [exec_tick] at hx
    cases hx
    exact time_le_add hlt

/-! ### How an INIT ends (R222, R250, R253) -/

/-- The code an INIT that is not refused ends with: that of its first check that fails, or OK (R253). -/
def startupCode (valid : Nat → Bool) (cfg : Cfg) (fail : BitVec 3) : ErrCode :=
  if !validCfg valid cfg then .invalidLineIdentifier
  else if failAcquire fail then .lineAcquisitionFailed
  else if failRegister fail then .interruptRegistrationFailed
  else .ok

theorem failDefined_iff {fail : BitVec 3} : failDefined fail = true ↔ fail ≠ 0b110#3 ∧ fail ≠ 0b111#3 := by
  simp [failDefined]

theorem validCfg_iff {valid : Nat → Bool} {cfg : Cfg} :
    validCfg valid cfg = true ↔ valid cfg.idInc = true ∧ valid cfg.idDec = true ∧ valid cfg.idOut = true := by
  simp [validCfg, and_assoc]

theorem startupCode_of_invalid {valid : Nat → Bool} {cfg : Cfg} (h : validCfg valid cfg = false) (fail : BitVec 3) :
    startupCode valid cfg fail = .invalidLineIdentifier := by simp [startupCode, h]

/-- The six defined selectors: 000 fails nothing, 001 to 011 an acquisition, 100 and 101 a registration (R94). -/
theorem failSelector_code : ∀ fail : BitVec 3, failDefined fail = true →
    (if failAcquire fail then ErrCode.lineAcquisitionFailed
      else if failRegister fail then .interruptRegistrationFailed else .ok) =
    if fail = 0b000#3 then .ok else if fail.ule 0b011#3 then .lineAcquisitionFailed
    else .interruptRegistrationFailed := by
  decide

theorem startupCode_of_valid {valid : Nat → Bool} {cfg : Cfg} {fail : BitVec 3} (hv : validCfg valid cfg = true)
    (hf : failDefined fail = true) :
    startupCode valid cfg fail =
      if fail = 0b000#3 then .ok else if fail.ule 0b011#3 then .lineAcquisitionFailed
      else .interruptRegistrationFailed := by
  rw [← failSelector_code fail hf]
  simp [startupCode, hv]

/-- INIT's body as its code says: the after-INIT state, or the one error and nothing retained (R222, R225). -/
theorem initBody_of_defined {valid : Nat → Bool} {cfg : Cfg} {fail : BitVec 3} (hd : cfg.distinctLines = true)
    (hf : failDefined fail = true) (c : CoreState) :
    initBody valid cfg fail c =
      if startupCode valid cfg fail = .ok then .next (initState cfg c)
      else raiseStartupError (startupCode valid cfg fail) c := by
  unfold initBody startupCode
  simp only [hd, hf, Bool.not_true, Bool.false_eq_true, if_false]
  split
  · rfl
  split
  · rfl
  split <;> rfl

section Init

variable {valid : Nat → Bool} {cfg : Cfg} {fail : BitVec 3} {c : CoreState}

theorem initWith_of_ok (hoff : c.life = .off) (hd : cfg.distinctLines = true) (hf : failDefined fail = true)
    (hok : startupCode valid cfg fail = .ok) : initWith valid cfg fail c = .next (initState cfg c) := by
  rw [initWith, guardStep_of_enabled (initEnabled_iff.mpr hoff), initBody_of_defined hd hf, if_pos hok]

theorem initWith_of_error {code : ErrCode} (hoff : c.life = .off) (hd : cfg.distinctLines = true)
    (hf : failDefined fail = true) (hcode : startupCode valid cfg fail = code) (hne : code ≠ .ok) :
    initWith valid cfg fail c = .next { c with err := code, startupErrors := c.startupErrors ++ [code] } := by
  subst hcode
  rw [initWith, guardStep_of_enabled (initEnabled_iff.mpr hoff), initBody_of_defined hd hf, if_neg hne, raiseStartupError]

/-- The INIT that leaves LIFE Active passed every check. -/
theorem startupCode_of_active {d : CoreState} (h : initWith valid cfg fail c = .next d) (hd : d.life = .active) :
    cfg.distinctLines = true ∧ failDefined fail = true ∧ startupCode valid cfg fail = .ok := by
  obtain ⟨hoff, hdist, hdef, ⟨hv, ha, hr, -⟩ | ⟨_, -, rfl⟩⟩ := init_next h
  · exact ⟨hdist, hdef, by simp [startupCode, hv, ha, hr]⟩
  · simp [hoff] at hd

/-- An INIT that does not leave LIFE Active leaves it Off (R225). -/
theorem life_off_of_failed_init {d : CoreState} (h : initWith valid cfg fail c = .next d) (hd : d.life ≠ .active) :
    d.life = .off := by
  obtain ⟨hoff, -, -, ⟨-, -, -, rfl⟩ | ⟨_, -, rfl⟩⟩ := init_next h
  · exact absurd rfl hd
  · exact hoff

end Init

/-- MAXL is `max(0, CFG_MAX_LEVEL)`, which 32 bits hold exactly (R13, R50). -/
theorem clampMaxLevel_toNat (m : BitVec 32) : ((clampMaxLevel m).toNat : Int) = max 0 m.toInt := by
  have hm : m.toInt < 2 ^ 31 := by simpa using BitVec.toInt_lt (x := m)
  rw [clampMaxLevel, BitVec.toNat_ofInt]
  omega

/-- Settles O41: with the selector 000 and valid identifiers no check fails. -/
theorem initBuildsEveryRegister : Obligations.InitBuildsEveryRegister := by
  unfold Obligations.InitBuildsEveryRegister
  refine ⟨fun cfg fail s => exec_onCore (.init cfg fail) s, fun valid cfg s hoff hID hIO hDO hinc hdec hout => ?_⟩
  have hok : startupCode valid cfg 0b000#3 = .ok := startupCode_of_valid (validCfg_iff.mpr ⟨hinc, hdec, hout⟩) rfl
  exact ⟨clampMaxLevel cfg.maxLevel, clampMaxLevel_toNat _,
    initWith_of_ok hoff (distinctLines_iff.mpr ⟨hID, hIO, hDO⟩) rfl hok⟩

/-- Settles O42: the INIT ends as its code says. -/
theorem initCompletes : Obligations.InitCompletes := by
  unfold Obligations.InitCompletes
  intro cfg fail s hoff hID hIO hDO h110 h111
  have hd := distinctLines_iff.mpr ⟨hID, hIO, hDO⟩
  have hf := failDefined_iff.mpr ⟨h110, h111⟩
  have hcode : startupCode Config.lineValid cfg fail =
      if validCfg Config.lineValid cfg then
        (if fail = 0b000#3 then .ok else if fail.ule 0b011#3 then .lineAcquisitionFailed
         else .interruptRegistrationFailed)
      else .invalidLineIdentifier := by
    split
    next hv => exact startupCode_of_valid hv hf
    next hv => exact startupCode_of_invalid (Bool.eq_false_of_not_eq_true hv) fail
  by_cases hok : startupCode Config.lineValid cfg fail = .ok
  · exact ⟨_, (exec_onCore ..).trans (onCore_of_next (initWith_of_ok hoff hd hf hok)), rfl, rfl, rfl,
      hok.symm.trans hcode, rfl⟩
  · exact ⟨_, (exec_onCore ..).trans (onCore_of_next (initWith_of_error hoff hd hf rfl hok)), rfl, rfl, rfl,
      hcode, hoff.trans (if_neg hok).symm⟩

/-- Settles O43: the code of each failing check, in the order of the checks. -/
theorem initErrorsRollBack : Obligations.InitErrorsRollBack := by
  unfold Obligations.InitErrorsRollBack
  intro valid cfg fail s hoff hd h110 h111
  have hf := failDefined_iff.mpr ⟨h110, h111⟩
  refine ⟨fun hinvalid => ?invalid, fun hinc hdec hout => ?valid⟩
  case invalid =>
    rw [← validCfg_iff, Bool.not_eq_true] at hinvalid
    exact initWith_of_error hoff hd hf (startupCode_of_invalid hinvalid fail) (by decide)
  case valid =>
    have hcode := startupCode_of_valid (validCfg_iff.mpr ⟨hinc, hdec, hout⟩) hf
    refine ⟨fun hacq => initWith_of_error hoff hd hf (hcode.trans ?_) (by decide),
      fun hreg => initWith_of_error hoff hd hf (hcode.trans ?_) (by decide)⟩
    · obtain rfl | rfl | rfl := hacq <;> rfl
    · obtain rfl | rfl := hreg <;> rfl

/-! ### TDBEGIN and TDEND (R226, R228) -/

/-- The state after TDBEGIN (R226). -/
def afterTdbegin (c : CoreState) : CoreState :=
  { c with irqA := false, irqB := false, smPend := false, cancel := true, pwmRun := false, life := .draining }

/-- The state after TDEND (R228). -/
def afterTdend (c : CoreState) : CoreState :=
  { c with heldInc := false, heldDec := false, heldOut := false, life := .off }

theorem tdbegin_of_active {c : CoreState} (hlife : c.life = .active) (hA : c.isrA = false) (hB : c.isrB = false) :
    tdbegin c = .next (afterTdbegin c) := guardStep_of_enabled (tdbeginEnabled_iff.mpr ⟨hlife, hA, hB⟩)

theorem tdend_of_draining {c : CoreState} (hlife : c.life = .draining) (hphase : c.smPhase = false) :
    tdend c = .next (afterTdend c) := guardStep_of_enabled (tdendEnabled_iff.mpr ⟨hlife, hphase⟩)

theorem life_of_tdend {c d : CoreState} (h : tdend c = .next d) : d.life = .off := by
  obtain ⟨-, rfl⟩ := tdend_next h
  rfl

/-- Settles O45: the label, and TDBEGIN under its guard. -/
theorem tdbeginCancels : Obligations.TdbeginCancels := by
  unfold Obligations.TdbeginCancels
  refine ⟨decode_encode .tdbegin, fun s hlife hA hB => ?_⟩
  rw [exec_onCore]
  exact onCore_of_next (tdbegin_of_active hlife hA hB)

/-- Settles O46: the label, and TDEND under its guard. -/
theorem tdendReleases : Obligations.TdendReleases := by
  unfold Obligations.TdendReleases
  refine ⟨decode_encode .tdend, fun s hlife hphase => ?_⟩
  rw [exec_onCore]
  exact onCore_of_next (tdend_of_draining hlife hphase)

/-- While LIFE is Off, the invariant leaves no step enabled but TICK and INIT (R282, R283). -/
theorem MachineInv.disabled_of_off {c : CoreState} (h : MachineInv c) (hoff : c.life = .off) {i : Instr}
    (ht : ∀ d, i ≠ .tick d) (hi : ∀ cfg fail, i ≠ .init cfg fail) : enabled i c = false := by
  obtain ⟨-, -, hA, hB, -, hphase, -⟩ := h.offQuiet hoff
  cases i with
  | tick d => exact absurd rfl (ht d)
  | init cfg fail => exact absurd rfl (hi cfg fail)
  | signalA => exact hA
  | signalB => exact hB
  | smexec => exact hphase
  | edgeA => simp [enabled, edgeEnabled, hoff]
  | edgeB => simp [enabled, edgeEnabled, hoff]
  | smstart => simp [enabled, smstartEnabled, hoff]
  | pwm => simp [enabled, pwmEnabled, hoff]
  | tdbegin => simp [enabled, tdbeginEnabled, hoff]
  | tdend => simp [enabled, tdendEnabled, hoff]
  | sread => rfl
  | sinc => rfl
  | sdec => rfl

theorem MachineInv.runOver_of_off {c : CoreState} (h : MachineInv c) (hoff : c.life = .off) : runOver c = true := by
  simp [runOver, hoff, h.disabled_of_off hoff]

/-- Settles O56: TDEND keeps the invariant and turns LIFE Off. -/
theorem tdendEndsRun : Obligations.TdendEndsRun := by
  unfold Obligations.TdendEndsRun
  intro s t h hx
  rw [exec_onCore] at hx
  obtain ⟨hcore, -⟩ := onCore_next hx
  exact (tdend_keeps_inv h hcore).runOver_of_off (life_of_tdend hcore)

/-! ### A teardown beside a pass (R226 to R228) -/

theorem exec_smstart_of_not_active {s : State} (h : s.life ≠ .active) : exec .smstart s = .fault .notEnabled :=
  (exec_notEnabled_iff rfl s).mpr fun he => h (smstartEnabled_iff.mp he).1

theorem exec_tdend_of_smPhase {s : State} (h : s.smPhase = true) : exec .tdend s = .fault .notEnabled := by
  refine (exec_notEnabled_iff rfl s).mpr fun he => ?_
  obtain ⟨-, hphase⟩ := tdendEnabled_iff.mp he
  simp [h] at hphase

/-- The state after a pass that records level `l` (R146). -/
def afterPassAt (l : Level) (c : CoreState) : CoreState :=
  { c.emit (.obs l (pctOf c.maxl l)) with level := l, sat := satOf c.maxl l, smPhase := false }

/-- After TDBEGIN a pass in flight runs to its end, emits its one OBS record, and lets TDEND be taken (R227). -/
theorem coreSteps_teardown_of_pass {c : CoreState} (hlife : c.life = .active) (hA : c.isrA = false)
    (hB : c.isrB = false) (hphase : c.smPhase = true) (hsat : c.sat = satOf c.maxl c.level) (hle : c.level ≤ c.maxl)
    (valid : Nat → Bool) :
    ∃ l, coreSteps valid [.tdbegin, .smexec, .tdend] c = .next (afterTdend (afterPassAt l (afterTdbegin c))) := by
  have hbegin : coreStep valid .tdbegin c = .next (afterTdbegin c) := tdbegin_of_active hlife hA hB
  obtain ⟨l, hpass⟩ : ∃ l, coreStep valid .smexec (afterTdbegin c) = .next (afterPassAt l (afterTdbegin c)) :=
    ⟨_, smexec_of_satOf hphase hsat hle rfl⟩
  have hend : coreStep valid .tdend (afterPassAt l (afterTdbegin c)) = .next _ :=
    tdend_of_draining (c := afterPassAt l (afterTdbegin c)) rfl rfl
  refine ⟨l, ?_⟩
  rw [coreSteps_cons_of_next hbegin, coreSteps_cons_of_next hpass, coreSteps_cons_of_next hend, coreSteps]

/-- Settles O47: TDBEGIN discards the request, and only a pass in flight delays TDEND. -/
theorem teardownDropsPendingPass : Obligations.TeardownDropsPendingPass := by
  unfold Obligations.TeardownDropsPendingPass
  intro s hlife hA hB
  have hbegin := tdbegin_of_active (c := s.core) hlife hA hB
  refine ⟨fun hphase => ?pending, fun hphase hsat hle => ⟨?delayed, ?inFlight⟩⟩
  case pending =>
    have hend := tdend_of_draining (c := afterTdbegin s.core) rfl hphase
    exact ⟨_, execAll_pair hbegin hend, rfl, rfl, rfl, rfl, exec_smstart_of_not_active (by simp [afterTdend])⟩
  case delayed =>
    exact ⟨_, (exec_onCore .tdbegin s).trans (onCore_of_next hbegin), exec_tdend_of_smPhase hphase⟩
  case inFlight =>
    obtain ⟨l, hsteps⟩ := coreSteps_teardown_of_pass hlife hA hB hphase hsat hle Config.lineValid
    exact ⟨_, onCore_of_next hsteps, rfl, List.length_append, wrRecords_append_obs ..⟩

/-! ### The next INIT (R230) -/

/-- Of the state before, a successful INIT keeps the time, the window, the records, the errors and the mark alone. -/
theorem initState_congr {c d : CoreState} (cfg : Cfg) (htime : c.time = d.time) (hwindow : c.window = d.window)
    (houtput : c.output = d.output) (herrors : c.startupErrors = d.startupErrors) (hmark : c.refusal = d.refusal) :
    initState cfg c = initState cfg d := by
  simp [initState, htime, hwindow, houtput, herrors, hmark]

/-- Settles O48: LIFE is Off where a core ends or fails to start, and the after-INIT state is the same from both. -/
theorem nothingSurvivesInit : Obligations.NothingSurvivesInit := by
  unfold Obligations.NothingSurvivesInit
  refine ⟨fun s t hx => ?released, fun valid cfg fail s t hinit hn => ?failed,
    fun valid cfg fail s s' t htime hwindow houtput herrors hmark hoff hinit hactive => ?rebuilt⟩
  case released =>
    rw [exec_onCore] at hx
    exact initEnabled_iff.mpr (life_of_tdend (onCore_next hx).1)
  case failed => exact initEnabled_iff.mpr (life_off_of_failed_init hinit hn)
  case rebuilt =>
    obtain ⟨hd, hf, hok⟩ := startupCode_of_active hinit hactive
    rw [initWith_of_ok hoff hd hf hok, initState_of_active hinit hactive,
      initState_congr cfg htime hwindow houtput herrors hmark]

end Sys2Proof.Machine
end

section
/-! Admitted runs: what weak fairness makes them reach (O57). -/

namespace Sys2Proof.Machine

/-! ### Weak fairness (R296) -/

theorem WeaklyFairTo.taken_or_disabled {i : Instr} {st : Nat → CoreState} {act : Nat → Instr}
    (h : WeaklyFairTo i st act) (n : Nat) : ∃ m, n ≤ m ∧ (act m = i ∨ enabled i (st m) = false) := by
  by_contra! hnone
  have henabled : ∀ m, n ≤ m → enabled i (st m) = true := fun m hm => by simpa using (hnone m hm).2
  obtain ⟨m, hm, htaken⟩ := h ⟨n, henabled⟩ n
  exact (hnone m hm).1 htaken

theorem FairRun.isRun {valid : Nat → Bool} {st : Nat → CoreState} {act : Nat → Instr} (h : FairRun valid st act) :
    IsRun valid st act := h.1

theorem FairRun.weaklyFairTo_signalInstr {valid : Nat → Bool} {st : Nat → CoreState} {act : Nat → Instr}
    (h : FairRun valid st act) (x : Line) : WeaklyFairTo (signalInstr x) st act := by
  obtain ⟨-, hsignalA, hsignalB, -⟩ := h
  cases x
  · exact hsignalA
  · exact hsignalB

theorem enabled_signalInstr (x : Line) (c : CoreState) : enabled (signalInstr x) c = c.isr x := by cases x <;> rfl

/-! ### What the steps keep and clear -/

theorem isr_of_signal {x : Line} {c d : CoreState} (h : signal x c = .next d) : d.isr x = false := by
  obtain ⟨-, rfl⟩ := signal_next h
  cases x <;> rfl

theorem smPhase_of_smexec {c d : CoreState} (h : smexec c = .next d) : d.smPhase = false := by
  obtain ⟨-, _, -, -, rfl⟩ := smexec_next h
  rfl

/-- SMSTART alone claims a pass (R42, R145). -/
theorem smPhase_of_coreExec {valid : Nat → Bool} {i : Instr} {c d : CoreState} (hi : i ≠ .smstart)
    (h : coreExec valid i c = .next d) (hphase : c.smPhase = false) : d.smPhase = false := by
  cases i with
  | smstart => exact absurd rfl hi
  | smexec => exact smPhase_of_smexec h
  | init cfg fail =>
    obtain ⟨-, -, -, ⟨-, -, -, rfl⟩ | ⟨_, -, rfl⟩⟩ := init_next h
    · rfl
    · exact hphase
  | _ =>
    rw [coreExec_frame h]
    exact hphase

/-- While LIFE stays Active, SMSTART alone consumes a pending request (R41, R145, R226). -/
theorem smPend_of_coreExec {valid : Nat → Bool} {i : Instr} {c d : CoreState} (hi : i ≠ .smstart)
    (h : coreExec valid i c = .next d) (hc : c.life = .active) (hd : d.life = .active) (hpend : c.smPend = true) :
    d.smPend = true := by
  cases i with
  | smstart => exact absurd rfl hi
  | signalA => obtain ⟨-, rfl⟩ := signal_next h; rfl
  | signalB => obtain ⟨-, rfl⟩ := signal_next h; rfl
  | init cfg fail =>
    obtain ⟨hoff, -⟩ := init_next h
    simp [hc] at hoff
  | tdbegin =>
    obtain ⟨-, rfl⟩ := tdbegin_next h
    cases hd
  | _ =>
    rw [coreExec_frame h]
    exact hpend

/-! ### Runs -/

section Run

variable {valid : Nat → Bool} {st : Nat → CoreState} {act : Nat → Instr}

theorem IsRun.coreExec_next (h : IsRun valid st act) (n : Nat) :
    coreExec valid (act n) (st n) = .next (st (n + 1)) := (coreStep_next (h n)).2

/-- Fairness to a step that disables itself leaves it disabled some time after every point. -/
theorem IsRun.disabled_later {i : Instr} (h : IsRun valid st act) (hfair : WeaklyFairTo i st act)
    (hself : ∀ c d, coreExec valid i c = .next d → enabled i d = false) (n : Nat) :
    ∃ m, n < m ∧ enabled i (st m) = false := by
  obtain ⟨m, hm, htaken | hdisabled⟩ := hfair.taken_or_disabled (n + 1)
  · exact ⟨m + 1, by omega, hself _ _ (htaken ▸ h.coreExec_next m)⟩
  · exact ⟨m, hm, hdisabled⟩

theorem FairRun.handler_finishes (h : FairRun valid st act) (x : Line) (n : Nat) :
    ∃ m, n < m ∧ (st m).isr x = false := by
  simp only [← enabled_signalInstr]
  refine h.isRun.disabled_later (h.weaklyFairTo_signalInstr x) (fun c d hx => ?_) n
  rw [coreExec_signalInstr] at hx
  exact (enabled_signalInstr x d).trans (isr_of_signal hx)

theorem FairRun.pass_finishes (h : FairRun valid st act) (n : Nat) : ∃ m, n < m ∧ (st m).smPhase = false := by
  obtain ⟨hrun, -, -, -, hsmexec, -⟩ := h
  exact hrun.disabled_later hsmexec (fun _ _ => smPhase_of_smexec) n

/-- If SMSTART were never taken, the request would stay, and no pass would follow the one in flight: SMSTART would be
enabled from that pass's end on, and fairness would take it. -/
theorem FairRun.smstart_taken (h : FairRun valid st act) {n : Nat} (hpend : (st n).smPend = true)
    (hlife : ∀ m, n ≤ m → (st m).life = .active) : ∃ m, n ≤ m ∧ act m = .smstart := by
  by_contra! hnever
  obtain ⟨k, hk, hphase⟩ := h.pass_finishes n
  obtain ⟨hrun, -, -, hsmstart, -⟩ := h
  have hpending : ∀ m, n ≤ m → (st m).smPend = true := fun m hm => by
    induction m, hm using Nat.le_induction with
    | base => exact hpend
    | succ m hm ih => exact smPend_of_coreExec (hnever m hm) (hrun.coreExec_next m) (hlife m hm) (hlife _ (by omega)) ih
  have hidle : ∀ m, k ≤ m → (st m).smPhase = false := fun m hm => by
    induction m, hm using Nat.le_induction with
    | base => exact hphase
    | succ m hm ih => exact smPhase_of_coreExec (hnever m (by omega)) (hrun.coreExec_next m) ih
  have henabled : ∀ m, k ≤ m → enabled .smstart (st m) = true := fun m hm =>
    smstartEnabled_iff.mpr ⟨hlife m (by omega), hpending m (by omega), hidle m hm⟩
  obtain ⟨m, hm, htaken⟩ := hsmstart ⟨k, henabled⟩ n
  exact hnever m hm htaken

/-- No step but TDBEGIN stops the engine (R190), so without one it stays enabled and fairness keeps taking it. -/
theorem FairRun.pwm_keeps_iterating (h : FairRun valid st act) {n : Nat} (hen : pwmEnabled (st n) = true)
    (hnone : ∀ m, n ≤ m → act m ≠ .tdbegin) (k : Nat) : ∃ m, k ≤ m ∧ act m = .pwm := by
  obtain ⟨hrun, -, -, -, -, hpwm⟩ := h
  have henabled : ∀ m, n ≤ m → enabled .pwm (st m) = true := fun m hm => by
    induction m, hm using Nat.le_induction with
    | base => exact hen
    | succ m hm ih =>
      have hx := hrun.coreExec_next m
      exact (pwmEnabled_of_coreExec_iff (ne_init_of_pwmEnabled ih hx) hx).mpr ⟨ih, hnone m hm⟩
  exact hpwm ⟨n, henabled⟩ k

end Run

/-- Settles O57: fairness to SIGNAL and SMEXEC, then to SMSTART, then to PWM. -/
theorem fairRunsFinishWork : Obligations.FairRunsFinishWork := by
  unfold Obligations.FairRunsFinishWork
  intro valid st act h n
  exact ⟨fun x _ => h.handler_finishes x n, fun _ => h.pass_finishes n, h.smstart_taken, h.pwm_keeps_iterating⟩

end Sys2Proof.Machine
end
